-- ==== Sys2Proof/Word.lean ====
section
/-! DEFINITION. The fixed-width words of IRTX: the 12-bit snapshot and the 25-bit frame word (spec/10_state.md R17, R18;
spec/00_scope.md R7: `v[W-1]` is the most significant bit, every value is unsigned). Times and durations are natural
numbers of microseconds (R8). -/

namespace Sys2Proof

/-- A Joystick Snapshot, also a data field or a check field (R17, R63, R64). -/
abbrev Snapshot := BitVec 12

/-- A frame word: the id bit, 12 data bits, 12 check bits (R65). -/
abbrev FrameWord := BitVec 25

end Sys2Proof
end

