-- ==== Sys2Proof/Syntax.lean ====
section
/-! DEFINITION. The syntax of IRTX: the symbols of a frame (spec/30_encoding.md R61), a (mark, space) pair, the two levels
SETLVL may write, and `Instr`, one constructor per row of spec/opcode_table.json. -/

namespace Sys2Proof

/-- The kind of a slot: header, zero bit or one bit. There is no fourth symbol (R61, R67). -/
inductive SlotSym where
  | hdr
  | zero
  | one
deriving DecidableEq, Repr

/-- One slot's (mark, space) pair, both in microseconds (R7, R60). -/
structure Pulse where
  mark : Nat
  space : Nat
deriving DecidableEq, Repr

/-- The operand of SETLVL: `v` in `{0, CAR_ON}` and no other value (R111, R13). -/
inductive Level where
  /-- 0: output disabled entirely. -/
  | off
  /-- `CAR_ON`: the carrier at the fixed duty cycle. -/
  | on
deriving DecidableEq, Repr

/-- The rows of spec/opcode_table.json, in the table's order. `frame` and `txw` carry the snapshot the item is the frame of, so
that an id bit of 1 or a check field that is not the complement cannot be written (spec/93_implementation_defined.md U19). -/
inductive Instr where
  /-- FRAME (R60): the 26 slots of the frame of snapshot `v`. -/
  | frame (v : Snapshot)
  /-- TXW (R65): the 25 bit slots of the frame word of snapshot `v`. -/
  | txw (v : Snapshot)
  /-- HDR (R61): the header symbol. -/
  | hdr
  /-- ZERO (R61): a zero bit. -/
  | zero
  /-- ONE (R61): a one bit. -/
  | one
  /-- ID (R62): the fixed identifier zero-bit of slot 1. -/
  | id
  /-- ARM (R80). -/
  | arm
  /-- TICK (R81). -/
  | tick
  /-- SAMPLE (R90). -/
  | sample
  /-- GATE (R95). -/
  | gate
  /-- ENCODE (R100). -/
  | encode
  /-- CARCFG (R110). -/
  | carcfg
  /-- SETLVL v (R111). -/
  | setlvl (v : Level)
  /-- MARK d (R112). -/
  | mark (d : Nat)
  /-- SPACE d (R113). -/
  | space (d : Nat)
  /-- PULSE m, s (R114). -/
  | pulse (m s : Nat)
  /-- INIT (R125). -/
  | init
  /-- STATUS (R126). -/
  | status
  /-- WAIT (R127). -/
  | wait
  /-- POLL (R128). -/
  | poll
  /-- SERVICE (R129). -/
  | service
  /-- TXFRAME (R130). -/
  | txframe
  /-- HALT (R131). -/
  | halt
deriving DecidableEq, Repr

end Sys2Proof
end

