-- ==== Sys2Proof/Config.lean ====
section
/-! DEFINITION. What an instance of the block fixes (the parameter set of spec/00_scope.md R4), what its environment decides
(`Env`), and the free values the spec leaves open. Every `opaque` constant here has no body: no proof can see its value, so a
claim holds whatever it is. -/

namespace Sys2Proof

/-- The parameters of spec/00_scope.md R4, the Timing Table (R14) and the Channel Map (R15) among them. `N_CH = 12` is fixed and
no parameter (spec/70_reset_and_hazards.md R176). The rational ones are a numerator and a denominator. The three rows to which R4
gives a value or a default have it as the field's default. -/
structure Params where
  /-- `T_HDR_MARK`. -/
  tHdrMark : Nat
  /-- `T_HDR_SPACE`. -/
  tHdrSpace : Nat
  /-- `T_ZERO_MARK`. -/
  tZeroMark : Nat
  /-- `T_ZERO_SPACE`. -/
  tZeroSpace : Nat
  /-- `T_ONE_MARK`. -/
  tOneMark : Nat
  /-- `T_ONE_SPACE`. -/
  tOneSpace : Nat
  /-- `T_GAP`. -/
  tGap : Nat
  /-- `IDLE_THRESHOLD` (N); 4 in R4's table, a parameter with that default (spec/93_implementation_defined.md U2). -/
  idleThreshold : Nat := 4
  /-- `F_CARRIER_HZ`, numerator. -/
  fCarrierNum : Nat
  /-- `F_CARRIER_HZ`, denominator. -/
  fCarrierDen : Nat
  /-- `DUTY_NUM`. -/
  dutyNum : Nat
  /-- `DUTY_DEN`. -/
  dutyDen : Nat
  /-- `PWM_TICK_HZ`, numerator. -/
  pwmNum : Nat
  /-- `PWM_TICK_HZ`, denominator. -/
  pwmDen : Nat
  /-- `CHANNEL_MAP`: `CH[0..11]`. -/
  channelMap : List Nat
  /-- `BANK_WIDTH`. -/
  bankWidth : Nat
  /-- `HAS_STATUS`. -/
  hasStatus : Bool
  /-- `T_STATUS_PULSE`. -/
  tStatusPulse : Nat
  /-- `L_MAX`; `none` is infinity, R4's default. -/
  lMax : Option Nat := none
  /-- `IDLE_COMPARE_PRE`: the losing reading of conflict C4. False is normative (R4, spec/42_idle_gate.md R95 (f)). -/
  idleComparePre : Bool := false
deriving DecidableEq, Repr, Inhabited

/-- The environment of a run, as plain data: what spec/95_test_vectors.md L3 calls a program's environment. Each list is a script
the run reads from the front; where a script says nothing, the free value of `Config` answers (log 3, 5, 6, 7). -/
structure Env where
  /-- `ARM_OK`, the timer hardware's answer (spec/10_state.md R24 (b)). -/
  armOk : Bool
  /-- `IN_RAW` values with the times they hold from, times rising (spec/30_encoding.md R70). -/
  inputs : List (Nat × Nat)
  /-- Draws of `LAT`, one per SERVICE (spec/45_sequencer.md R129). -/
  lats : List Nat
  /-- One entry per WAIT: `some x` is a spurious wake `x` microseconds after WAIT was entered (R127 (b)). -/
  wakes : List (Option Nat)
  /-- One entry per point between two main-context steps at which a TICK is due: `true` is the TICK there
  (spec/20_memory.md R48, spec/60_exceptions.md R144). -/
  orders : List Bool
  /-- The reset input (spec/10_state.md R24 (c)): `true` while asserted. -/
  resetIn : Bool
deriving DecidableEq, Repr

/-- The OPEN rows of R4's table, which fix no value (spec/00_scope.md R4; DESIGN CHOICE, log 1). -/
opaque Config.openParams : Params

/-- The parameter set of the instance: R4's values where its table gives one, the rest OPEN (spec/00_scope.md R4; log 1). -/
def Config.params : Params := { Config.openParams with idleThreshold := 4, lMax := none, idleComparePre := false }

/-- `ARM_OK` of the environment, OPEN (spec/92_eei_decisions.md D17; log 3). -/
opaque Config.armOk : Bool

/-- `IN_RAW(t)` where no script gives it, per reset epoch and time (spec/10_state.md R24 (a); log 3). -/
opaque Config.inRaw : Nat → Nat → Nat

/-- Which of the lines that change at the sampling instant read their new level, per epoch and time (D25; log 4). -/
opaque Config.edgeMask : Nat → Nat → Nat

/-- `phi`, the value of `CAR_CNT` at `NOW = 0`, per reset epoch (spec/44_modulator.md R117; log 8). -/
opaque Config.carPhase : Nat → Nat

/-- The draw of `LAT`, per draw counter (D11; log 5). -/
opaque Config.latency : Nat → Nat

/-- The draw of a spurious wake in a WAIT, per draw counter (D26; log 6). -/
opaque Config.spuriousWake : Nat → Option Nat

/-- The order of a TICK and a main-context step at one instant, per draw counter (D24; log 7). -/
opaque Config.tickFirst : Nat → Bool

end Sys2Proof
end

