-- ==== Sys2Proof/Machine/Timing.lean ====
section
/-! DEFINITION. What follows from a parameter set: the bit, frame and active durations (spec/00_scope.md R5, spec/30_encoding.md
R69), the (mark, space) pair of a symbol (R61), the carrier constants (spec/44_modulator.md R110) and the well-formedness of the
set itself (R4, R5, R110). -/

namespace Sys2Proof

/-- `T_BIT`, the total duration of one bit slot (R5 (a)). -/
def Params.tBit (p : Params) : Nat := p.tZeroMark + p.tZeroSpace

/-- `T_ACTIVE`, first mark start to last space end of a frame (R69 (a)). -/
def Params.tActive (p : Params) : Nat := p.tHdrMark + p.tHdrSpace + 25 * p.tBit

/-- `T_FRAME`, the frame period and the scheduler's period (R5 (c), R85). -/
def Params.tFrame (p : Params) : Nat := p.tHdrMark + p.tHdrSpace + 25 * p.tBit + p.tGap

/-- `dur`: the (mark, space) pair of a symbol (R61). -/
def Params.dur (p : Params) : SlotSym → Pulse
  | .hdr => ⟨p.tHdrMark, p.tHdrSpace⟩
  | .zero => ⟨p.tZeroMark, p.tZeroSpace⟩
  | .one => ⟨p.tOneMark, p.tOneSpace⟩

/-- `CAR_WRAP = floor(PWM_TICK_HZ / F_CARRIER_HZ)` (R110). -/
def Params.carWrap (p : Params) : Nat := (p.pwmNum * p.fCarrierDen) / (p.pwmDen * p.fCarrierNum)

/-- `CAR_ON = floor(CAR_WRAP * DUTY_NUM / DUTY_DEN)` (R110). -/
def Params.carOn (p : Params) : Nat := (p.carWrap * p.dutyNum) / p.dutyDen

/-- R4's ranges of the durations, the threshold and the rationals. -/
def Params.rangesOk (p : Params) : Bool :=
  decide (0 < p.tHdrMark) && decide (0 < p.tHdrSpace) && decide (0 < p.tZeroMark) && decide (0 < p.tZeroSpace)
    && decide (0 < p.tOneMark) && decide (0 < p.tOneSpace) && decide (0 < p.tGap) && decide (1 ≤ p.idleThreshold)
    && decide (0 < p.fCarrierNum) && decide (0 < p.fCarrierDen) && decide (0 < p.dutyNum) && decide (p.dutyNum < p.dutyDen)
    && decide (0 < p.pwmNum) && decide (0 < p.pwmDen) && decide (0 < p.tStatusPulse)

/-- R5 (a) and (b): equal bit durations; the zero's mark is the shorter and its space the longer. -/
def Params.bitsOk (p : Params) : Bool :=
  decide (p.tZeroMark + p.tZeroSpace = p.tOneMark + p.tOneSpace) && decide (p.tZeroMark < p.tOneMark)
    && decide (p.tOneSpace < p.tZeroSpace)

/-- R15 and D6: 12 distinct lines, each in a bank of at least 12. -/
def Params.mapOk (p : Params) : Bool :=
  decide (p.channelMap.length = 12) && decide p.channelMap.Nodup && p.channelMap.all (fun k => decide (k < p.bankWidth))
    && decide (12 ≤ p.bankWidth)

/-- The `require` of CARCFG (R110). -/
def Params.carrierOk (p : Params) : Bool :=
  decide (2 ≤ p.carWrap) && decide (0 < p.carOn) && decide (p.carOn < p.carWrap)

/-- A parameter set that is not refused at configuration time (R4, R5, R110, D27). -/
def Params.wf (p : Params) : Bool := p.rangesOk && p.bitsOk && p.mapOk && p.carrierOk

end Sys2Proof
end

