-- ==== Sys2Proof/WellFormed.lean ====
section
/-! DEFINITION. Well-formed instructions: the durations of MARK, SPACE and PULSE are positive (spec/44_modulator.md R112 to R114,
spec/00_scope.md R4). Every other operand is well formed by its type: a snapshot is any 12-bit value (spec/30_encoding.md R67) and
a level is 0 or `CAR_ON` (R111). The checks of a parameter set are `Params.wf` (Machine/Timing.lean). -/

namespace Sys2Proof

/-- An instruction whose operands are in the ranges the spec gives them. -/
def Instr.wf : Instr → Bool
  | .mark d => decide (0 < d)
  | .space d => decide (0 < d)
  | .pulse m s => decide (0 < m) && decide (0 < s)
  | .frame _ => true
  | .txw _ => true
  | .hdr => true
  | .zero => true
  | .one => true
  | .id => true
  | .arm => true
  | .tick => true
  | .sample => true
  | .gate => true
  | .encode => true
  | .carcfg => true
  | .setlvl _ => true
  | .init => true
  | .status => true
  | .wait => true
  | .poll => true
  | .service => true
  | .txframe => true
  | .halt => true

end Sys2Proof
end

