-- ==== Sys2Proof/Decode.lean ====
section
/-! DEFINITION. The only encodings IRTX has (spec/30_encoding.md): the frame format and the symbol table. An item on the wire is a
run of symbols that begins at a slot of the frame; `decodeRun` reads it and `encode` writes it. The operations have no encoding
(R72), so no word decodes to one. `decodeTableWord` reads the words the host numbers (log 15). -/

namespace Sys2Proof

/-- `check[11:0] = (~data) & 0xFFF` (R64). -/
def checkField (v : Snapshot) : Snapshot := ~~~v

/-- `TXW = {0, data, check}` (R65). -/
def frameWord (v : Snapshot) : FrameWord := 0#1 ++ v ++ checkField v

/-- `sym(b)` (R61). -/
def symOf (b : Bool) : SlotSym := if b then .one else .zero

/-- The symbols of bit slots 1 to 25: slot `s` carries `w[25-s]` (R65). -/
def bitSyms (w : FrameWord) : List SlotSym := (List.range 25).map fun i => symOf (w.getLsbD (24 - i))

/-- The 26 symbols of a frame: header, id bit, data, check (R60). -/
def frameSyms (v : Snapshot) : List SlotSym := .hdr :: bitSyms (frameWord v)

/-- Why a run of symbols (or of mark durations) is no item of the frame format (R67: never produced by the block). -/
inductive Reject where
  /-- No symbol at all. -/
  | emptyRun
  /-- Slot 0 does not hold the header symbol. -/
  | headerMissing
  /-- The header symbol in one of slots 1 to 25. -/
  | headerInBitSlot
  /-- Fewer than 25 bit slots. -/
  | tooShort
  /-- More than 25 bit slots: a trailer or a repeat. -/
  | tooLong
  /-- An id bit of 1 (R62). -/
  | idNotZero
  /-- A check field that is not the complement of the data field (R64). -/
  | checkMismatch
  /-- A slot index above 25. -/
  | noSuchSlot
  /-- Several slots that begin inside the data or check field. -/
  | notAnItem
  /-- A mark duration that is none of the Timing Table's (R71). -/
  | unknownMark
deriving DecidableEq, Repr

/-- The number whose bits, most significant first, a run of bit symbols carries. -/
def readBits : Nat → List SlotSym → Except Reject Nat
  | acc, [] => .ok acc
  | _, .hdr :: _ => .error .headerInBitSlot
  | acc, .zero :: rest => readBits (2 * acc) rest
  | acc, .one :: rest => readBits (2 * acc + 1) rest

/-- A 25-bit frame word is well formed iff its id bit is 0 and its check field is the complement of its data field (R67, R71). -/
def decodeFrameWord (w : FrameWord) : Except Reject Snapshot :=
  if w.getLsbD 24 then .error .idNotZero
  else if w.extractLsb' 0 12 = checkField (w.extractLsb' 12 12) then .ok (w.extractLsb' 12 12)
  else .error .checkMismatch

/-- The snapshot whose 25 bit slots a run of symbols is. -/
def decodeBits (syms : List SlotSym) : Except Reject Snapshot :=
  if syms.length < 25 then .error .tooShort
  else if 25 < syms.length then .error .tooLong
  else match readBits 0 syms with
    | .error r => .error r
    | .ok n => decodeFrameWord (BitVec.ofNat 25 n)

/-- The item that a run of symbols beginning at a slot of the frame is, by R60's table of slots. -/
def decodeRun (slot : Nat) (syms : List SlotSym) : Except Reject Instr :=
  match slot, syms with
  | _, [] => .error .emptyRun
  | 0, [.hdr] => .ok .hdr
  | 0, .hdr :: bits =>
    match decodeBits bits with
    | .ok v => .ok (.frame v)
    | .error r => .error r
  | 0, _ => .error .headerMissing
  | 1, [.zero] => .ok .id
  | 1, [.one] => .error .idNotZero
  | 1, bits =>
    match decodeBits bits with
    | .ok v => .ok (.txw v)
    | .error r => .error r
  | slot, [b] =>
    if 25 < slot then .error .noSuchSlot
    else match b with
      | .zero => .ok .zero
      | .one => .ok .one
      | .hdr => .error .headerInBitSlot
  | _, _ => .error .notAnItem

/-- The encoder, written from the same table: where an item's run begins and its symbols; `none` for an operation, which has no
encoding (R72). A lone zero or one bit is written at slot 2, the first data slot. -/
def encode : Instr → Option (Nat × List SlotSym)
  | .frame v => some (0, frameSyms v)
  | .txw v => some (1, bitSyms (frameWord v))
  | .hdr => some (0, [.hdr])
  | .id => some (1, [.zero])
  | .zero => some (2, [.zero])
  | .one => some (2, [.one])
  | .arm => none
  | .tick => none
  | .sample => none
  | .gate => none
  | .encode => none
  | .carcfg => none
  | .setlvl _ => none
  | .mark _ => none
  | .space _ => none
  | .pulse _ _ => none
  | .init => none
  | .status => none
  | .wait => none
  | .poll => none
  | .service => none
  | .txframe => none
  | .halt => none

/-- The symbol of a bit slot whose mark lasted `m` (R71). -/
def symOfMark (p : Params) (m : Nat) : Except Reject SlotSym :=
  if m = p.tZeroMark then .ok .zero else if m = p.tOneMark then .ok .one else .error .unknownMark

/-- The symbols of a run of bit slots from their mark durations (R71). -/
def symsOfMarks (p : Params) : List Nat → Except Reject (List SlotSym)
  | [] => .ok []
  | m :: rest =>
    match symOfMark p m, symsOfMarks p rest with
    | .ok b, .ok bs => .ok (b :: bs)
    | .error r, _ => .error r
    | .ok _, .error r => .error r

/-- R71's receiver-side inverse: the frame that 26 mark durations are. -/
def decodeMarks (p : Params) (marks : List Nat) : Except Reject Instr :=
  match marks with
  | [] => .error .emptyRun
  | m :: rest =>
    if m ≠ p.tHdrMark then .error .headerMissing
    else match symsOfMarks p rest with
      | .error r => .error r
      | .ok bits =>
        match decodeBits bits with
        | .ok v => .ok (.frame v)
        | .error r => .error r

/-- The `n` bits of a word as the symbols of bit slots, bit `n-1` first. -/
def wordSyms (n w : Nat) : List SlotSym := (List.range n).map fun i => symOf (w.testBit (n - 1 - i))

/-- The instruction an opcode-table word stands for (log 15). One byte: the symbol rows, bit 0 the symbol's bit and bit 1 the ID
row's slot field. Up to four bytes: the 25 bits of a frame word; with bit 25 set (the `H` of FRAME's pattern) the frame. -/
def decodeTableWord (nbits w : Nat) : Option Instr :=
  if nbits = 0 then none
  else if nbits ≤ 8 then
    if w = 2 then (decodeRun 1 [.zero]).toOption
    else if w < 2 then (decodeRun 2 (wordSyms 1 w)).toOption
    else none
  else if nbits ≤ 32 then
    if w < 2 ^ 25 then (decodeRun 1 (wordSyms 25 w)).toOption
    else if w < 2 ^ 26 then (decodeRun 0 (.hdr :: wordSyms 25 (w - 2 ^ 25))).toOption
    else none
  else none

/-- The opcode-table word of an item: how many bits, in whole bytes, and the word; `none` where the table gives none (R72). -/
def encodeWord : Instr → Option (Nat × Nat)
  | .frame v => some (32, 2 ^ 25 + (frameWord v).toNat)
  | .txw v => some (32, (frameWord v).toNat)
  | .zero => some (8, 0)
  | .one => some (8, 1)
  | .id => some (8, 2)
  | .hdr => none
  | .arm => none
  | .tick => none
  | .sample => none
  | .gate => none
  | .encode => none
  | .carcfg => none
  | .setlvl _ => none
  | .mark _ => none
  | .space _ => none
  | .pulse _ _ => none
  | .init => none
  | .status => none
  | .wait => none
  | .poll => none
  | .service => none
  | .txframe => none
  | .halt => none

end Sys2Proof
end

