-- ==== Sys2Proof/Machine/State.lean ====
section
/-! DEFINITION. The state of IRTX as plain data (spec/10_state.md R10 to R29), the model's own fields beside it, the reasons a step
can stop, and the state right after reset. -/

namespace Sys2Proof.Machine

open Sys2Proof

/-- `PHASE`, the main context's control state (R20). -/
inductive Phase where
  | reset
  | init
  | wait
  | service
  | tx
  | halt
deriving DecidableEq, Repr

/-- `SEG`: which half of a slot is in progress (R19). -/
inductive Seg where
  | markSeg
  | spaceSeg
deriving DecidableEq, Repr

/-- The model's own control position: the line of R132's program, and of INIT, SERVICE and TXFRAME inside it, that the main
context executes next (log 10). HALT needs none: a halted block has no next line. -/
inductive Ctl where
  /-- Reset released: INIT begins with CARCFG. -/
  | boot
  /-- INIT: SETLVL 0. -/
  | initLevel
  /-- INIT: ARM. -/
  | initArm
  /-- INIT: STATUS. -/
  | initStatus
  /-- In WAIT, asleep. -/
  | wait
  /-- Woken: POLL. -/
  | poll
  /-- SERVICE, after its latency: SAMPLE. -/
  | sample
  /-- SERVICE: GATE. -/
  | gate
  /-- SERVICE: ENCODE. -/
  | encode
  /-- TXFRAME: the MARK of slot `SLOT`. -/
  | mark
  /-- TXFRAME: the SPACE of slot `SLOT`. -/
  | space
deriving DecidableEq, Repr

/-- The state of the block. The first fields are the spec's (R11 to R27); those from `statusLog` on are the model's own
(INVENTORY.md). -/
@[ext]
structure State where
  /-- `DUE` (R11). -/
  due : Bool
  /-- `IDLE_CNT` (R12). -/
  idleCnt : Nat
  /-- `CAR_LEVEL` (R13). -/
  carLevel : Nat
  /-- `CAR_WRAP` (R16). -/
  carWrap : Nat
  /-- `CAR_ON` (R16). -/
  carOn : Nat
  /-- `SNAP` (R17). -/
  snap : Snapshot
  /-- `TXW` (R18). -/
  txw : FrameWord
  /-- `PLIST` (R18). -/
  plist : List Pulse
  /-- `SLOT` (R19). -/
  slot : Nat
  /-- `SEG` (R19). -/
  seg : Seg
  /-- `PHASE` (R20). -/
  phase : Phase
  /-- `ARMED` (R21). -/
  armed : Bool
  /-- `NEXT_FIRE` (R21). -/
  nextFire : Nat
  /-- `NOW` (R22). -/
  now : Nat
  /-- `HALTED` (R23). -/
  halted : Bool
  /-- `STATUS_OUT` (R25 (c)). -/
  statusOut : Bool
  /-- `CAR_CNT`, held as its value `phi` at `NOW = 0`; `CAR_CNT(t)` is computed from it (R27 (c), R116; log 8). -/
  carPhi : Nat
  /-- `TRACE`: `(time, level)` per SETLVL (R26). -/
  trace : List (Nat × Nat)
  /-- `TICKS`: the times TICK fired (R26). -/
  ticks : List Nat
  /-- The model's: `(time, value)` per StatusWrite (log 18). -/
  statusLog : List (Nat × Bool)
  /-- The model's: the value the last ARM, GATE or POLL returned (log 10). -/
  ret : Bool
  /-- The model's: the control position (log 10). -/
  ctl : Ctl
  /-- The model's: the parameter set, written by nothing (R4, R14, R15; log 1). -/
  params : Params
  /-- The model's: the environment (R24; log 3). -/
  env : Env
  /-- The model's: how many times reset was asserted (log 17). -/
  epoch : Nat
  /-- The model's: how many free values have been drawn (log 5). -/
  drawIx : Nat
  /-- The model's: a word presented for execution, `(nbits, w)` (log 15). -/
  port : Option (Nat × Nat)
deriving DecidableEq, Repr

/-- The one fault of the block (spec/60_exceptions.md R140, R141). -/
inductive Fault where
  /-- INIT_FAIL: the periodic timer could not be armed. Raised by INIT, which enters HALT; answered by every step of the halted
  block, which has no further step (R131). Safe: nothing is claimed of a halted block but its state. -/
  | initFail
deriving DecidableEq, Repr

/-- Why a step has no meaning. -/
inductive Refusal where
  /-- An instruction without a meaning, by its mnemonic; raised by no arm. Safe. -/
  | notModelled (mnemonic : String)
  /-- A parameter set that R4, R5 or R110's `require` rules out, refused at configuration time by CARCFG and INIT
  (spec/92_eei_decisions.md D27). Safe: the spec gives such a set no behaviour. -/
  | malformedParams
  /-- A presented word that is no item of the frame format: operations have no binary encoding (spec/30_encoding.md R72) and
  ill-formed frames are never produced (R67). Raised by step. Safe. -/
  | noEncoding
deriving DecidableEq, Repr

/-- Every element at its reset value (R29) for a given parameter set, environment, reset epoch and draw counter; the unspecified
ones are 0 (DESIGN CHOICE, log 9) and the carrier phase is the epoch's free value (R117). -/
def State.afterReset (p : Params) (env : Env) (epoch drawIx : Nat) : State where
  due := false
  idleCnt := 0
  carLevel := 0
  carWrap := 0
  carOn := 0
  snap := 0
  txw := 0
  plist := List.replicate 26 ⟨0, 0⟩
  slot := 0
  seg := .markSeg
  phase := .reset
  armed := false
  nextFire := 0
  now := 0
  halted := false
  statusOut := false
  carPhi := Config.carPhase epoch
  trace := []
  ticks := []
  statusLog := []
  ret := false
  ctl := .boot
  params := p
  env := env
  epoch := epoch
  drawIx := drawIx
  port := none

/-- The machine right after reset (R29, R165, R166), of a free parameter set and a free environment (log 1, 3). -/
def State.reset : State :=
  State.afterReset Config.params ⟨Config.armOk, [], [], [], [], false⟩ 0 0

end Sys2Proof.Machine
end

