-- ==== Sys2Proof/Machine/Operands.lean ====
section
/-! DEFINITION. The operands of the operations: the level of SETLVL, the raw bank word and the snapshot taken from it, the draws,
and the pulse list of a snapshot. -/

namespace Sys2Proof.Machine

open Sys2Proof

/-- The value of a level operand: 0 or `CAR_ON` (spec/44_modulator.md R111). -/
def levelValue (s : State) : Level → Nat
  | .off => 0
  | .on => s.carOn

/-- The scripted raw level at time `t`: the last entry whose time is not after `t` (spec/30_encoding.md R70). -/
def scriptedAt (script : List (Nat × Nat)) (t : Nat) : Option Nat :=
  script.foldl (fun acc e => if e.1 ≤ t then some e.2 else acc) none

/-- `IN_RAW(t)`: the level of every line of the bank at `t` (spec/10_state.md R24 (a)); free where no script gives it (log 3). -/
def inRaw (s : State) (t : Nat) : BitVec s.params.bankWidth :=
  BitVec.ofNat _ ((scriptedAt s.env.inputs t).getD (Config.inRaw s.epoch t))

/-- The level of the lines just before time `t`. At time 0 there is no earlier instant. -/
def inRawBefore (s : State) (t : Nat) : BitVec s.params.bankWidth := inRaw s (t - 1)

/-- `BankRead()`: all lines at the one instant `NOW` (spec/20_memory.md R41). A line that changes at that instant reads its old or
its new level, each line independently (spec/41_sampler.md R90 (d), D25; log 4). -/
def bankRead (s : State) : BitVec s.params.bankWidth :=
  if inRawBefore s s.now = inRaw s s.now then inRaw s s.now
  else (inRaw s s.now &&& BitVec.ofNat _ (Config.edgeMask s.epoch s.now))
    ||| (inRawBefore s s.now &&& ~~~(BitVec.ofNat _ (Config.edgeMask s.epoch s.now)))

/-- The bits of a snapshot, Channel Map element 0 first: element `k` gives `NOT raw[CH[k]]` (spec/30_encoding.md R63). -/
def snapshotBits {w : Nat} (channels : List Nat) (raw : BitVec w) : List Bool :=
  channels.map fun line => !raw.getLsbD line

/-- The 12-bit value whose bits, most significant first, a list gives. -/
def snapshotOfBits (bits : List Bool) : Snapshot :=
  BitVec.ofNat 12 (bits.foldl (fun acc b => 2 * acc + b.toNat) 0)

/-- The snapshot of a raw bank word: `SNAP[11-k] = NOT raw[CH[k]]` (R63, R90). -/
def snapshotOf {w : Nat} (channels : List Nat) (raw : BitVec w) : Snapshot :=
  snapshotOfBits (snapshotBits channels raw)

/-- `PLIST` of a snapshot: the pair of each of its 26 symbols (spec/30_encoding.md R66). -/
def pulseList (p : Params) (v : Snapshot) : List Pulse := (frameSyms v).map p.dur

/-- The pairs of the 25 bit slots of a frame word (R65). -/
def bitPulses (p : Params) (v : Snapshot) : List Pulse := (bitSyms (frameWord v)).map p.dur

/-- A draw brought into `0..L_MAX`; every member of the range is reached (spec/45_sequencer.md R129). -/
def boundLatency : Option Nat → Nat → Nat
  | none, x => x
  | some 0, _ => 0
  | some (n + 1), x => x % (n + 2)

/-- The draw of `LAT` (R129, D11): the script's next entry, else a free value (log 5). -/
def drawLatency (s : State) : Nat × State :=
  match s.env.lats with
  | x :: rest => (boundLatency s.params.lMax x, { s with env := { s.env with lats := rest } })
  | [] => (boundLatency s.params.lMax (Config.latency s.drawIx), { s with drawIx := s.drawIx + 1 })

/-- The draw of a spurious wake in one WAIT (R127 (b), D26): `some x` after `x` microseconds, `none` for no such wake (log 6). -/
def drawWake (s : State) : Option Nat × State :=
  match s.env.wakes with
  | x :: rest => (x, { s with env := { s.env with wakes := rest } })
  | [] => (Config.spuriousWake s.drawIx, { s with drawIx := s.drawIx + 1 })

/-- The draw of the order of a TICK and the main context's next step at one instant (spec/60_exceptions.md R144, D24): `true` is
the TICK first (log 7). -/
def drawOrder (s : State) : Bool × State :=
  match s.env.orders with
  | b :: rest => (b, { s with env := { s.env with orders := rest } })
  | [] => (Config.tickFirst s.drawIx, { s with drawIx := s.drawIx + 1 })

end Sys2Proof.Machine
end

