-- ==== Sys2Proof/Machine/Flags.lean ====
section
/-! DEFINITION. The flag computations: the idle gate's counter and decision (spec/42_idle_gate.md R95), the enabling of TICK
(spec/40_scheduler.md R81). -/

namespace Sys2Proof.Machine

open Sys2Proof

/-- `IDLE_CNT` after GATE: 0 for a non-zero snapshot, one more for the zero snapshot; it never wraps (R95, R12). -/
def idleCount (snap : Snapshot) (cnt : Nat) : Nat := if snap ≠ 0 then 0 else cnt + 1

/-- GATE's result from the counter before it: a non-zero snapshot is transmitted; a zero one iff the incremented counter is below
the threshold, or, under `IDLE_COMPARE_PRE`, the counter before the increment is (R95 (f), conflict C4). -/
def gateTransmit (p : Params) (snap : Snapshot) (cnt : Nat) : Bool :=
  if snap ≠ 0 then true
  else if p.idleComparePre then decide (cnt < p.idleThreshold)
  else decide (cnt + 1 < p.idleThreshold)

/-- TICK is enabled iff `ARMED = 1` and `NOW = NEXT_FIRE` (R81). -/
def tickEnabled (s : State) : Bool := s.armed && s.now == s.nextFire

end Sys2Proof.Machine
end

