-- ==== Sys2Proof/Machine/Ops.lean ====
section
/-! DEFINITION. The shared operations: the port primitives, the timer and its interrupt, the busy wait that hosts it, a pulse, the
one fault, and the moves of the control state. There is no memory and no register file (spec/20_memory.md R40, spec/10_state.md
R28). -/

namespace Sys2Proof.Machine

open Sys2Proof

/-- `SetLevel(v)` with its TRACE event (spec/20_memory.md R42, spec/44_modulator.md R111). -/
def setLevel (v : Nat) (s : State) : State :=
  { s with carLevel := v, trace := s.trace ++ [(s.now, v)] }

/-- `StatusWrite(b)`; nothing without the feedback line (spec/20_memory.md R43). -/
def statusWrite (b : Bool) (s : State) : State :=
  if s.params.hasStatus then { s with statusOut := b, statusLog := s.statusLog ++ [(s.now, b)] } else s

/-- Taking the tick interrupt (spec/40_scheduler.md R81, spec/60_exceptions.md R145): set `DUE`, move `NEXT_FIRE` one period on,
note the time, and wake the main context if it is in WAIT. Nothing is saved and nothing else is touched. -/
def tickFire (s : State) : State :=
  { s with
    due := true
    nextFire := s.nextFire + s.params.tFrame
    ticks := s.ticks ++ [s.now]
    ctl := if s.phase = .wait then .poll else s.ctl }

/-- Every TICK whose nominal time is before `limit` fires at its nominal time (R82); `fuel` bounds their number. -/
def fireTicks : Nat → Nat → State → State
  | 0, _, s => s
  | fuel + 1, limit, s =>
    if s.armed && decide (s.nextFire < limit) then
      fireTicks fuel limit (tickFire { s with now := s.nextFire })
    else s

/-- The point between two main-context steps: a TICK due at this very instant fires here or is left to fire later, as the draw says
(spec/20_memory.md R48, spec/60_exceptions.md R144, R145, D24; log 7). -/
def settleTick (s : State) : State :=
  if tickEnabled s then
    if (drawOrder s).1 then tickFire (drawOrder s).2 else (drawOrder s).2
  else s

/-- `wait(d)`: `NOW` advances by exactly `d`; the interrupt's return is to the same wait, which is not stretched (spec/00_scope.md
R9, spec/44_modulator.md R115, spec/60_exceptions.md R145, R146). In `d` microseconds at most `d` ticks fire, as `T_FRAME > 0`. -/
def waitFor (d : Nat) (s : State) : State :=
  settleTick { fireTicks d (s.now + d) s with now := s.now + d }

/-- MARK's body (R112). -/
def markFor (d : Nat) (s : State) : State :=
  waitFor d (setLevel s.carOn { s with seg := .markSeg })

/-- SPACE's body (R113). -/
def spaceFor (d : Nat) (s : State) : State :=
  waitFor d (setLevel 0 { s with seg := .spaceSeg })

/-- PULSE's body: MARK, then SPACE (R114). -/
def pulseFor (p : Pulse) (s : State) : State := spaceFor p.space (markFor p.mark s)

/-- The realisation of a run of slots on the wire, back to back in list order (spec/30_encoding.md R68, R114, D12). -/
def emitPulses (ps : List Pulse) (s : State) : State := ps.foldl (fun t p => pulseFor p t) s

/-- Raising INIT_FAIL, the block's one fault: HALT is entered and nothing is recorded (spec/60_exceptions.md R140,
spec/45_sequencer.md R131). There is no return from it but reset. -/
def enterHalt (s : State) : State := { s with phase := .halt, halted := true }

/-- The main context goes back to WAIT (`PHASE <- WAIT`, R125, R129). -/
def toWait (s : State) : State := { s with phase := .wait, ctl := .wait }

/-- SERVICE's first lines: `PHASE <- SERVICE`, the latency draw and its wait (R129). -/
def enterService (s : State) : State :=
  waitFor (drawLatency { s with phase := .service }).1 (drawLatency { s with phase := .service }).2

/-- TXFRAME's first lines: `PHASE <- TX`, `SLOT <- 0` (R130). -/
def startFrame (s : State) : State := { s with phase := .tx, slot := 0 }

/-- TXFRAME's last line of the loop: `SLOT <- SLOT + 1` (R130). -/
def nextSlot (s : State) : State := { s with slot := s.slot + 1 }

/-- CARCFG's writes (spec/44_modulator.md R110). -/
def deriveCarrier (s : State) : State := { s with carWrap := s.params.carWrap, carOn := s.params.carOn }

/-- ARM's body: `ArmPeriodic(T_FRAME)`, answered by `ARM_OK` (spec/40_scheduler.md R80). -/
def armTimer (s : State) : State :=
  if s.env.armOk then { s with armed := true, nextFire := s.now + s.params.tFrame, ret := true }
  else { s with ret := false }

/-- SAMPLE's body: one bank read, then the bits are taken from it (spec/41_sampler.md R90, R91). -/
def sampleInputs (s : State) : State := { s with snap := snapshotOf s.params.channelMap (bankRead s) }

/-- GATE's body (spec/42_idle_gate.md R95). -/
def idleGate (s : State) : State :=
  { s with idleCnt := idleCount s.snap s.idleCnt, ret := gateTransmit s.params s.snap s.idleCnt }

/-- ENCODE's body (spec/43_encoder.md R100). -/
def encodeSnapshot (s : State) : State :=
  { s with txw := frameWord s.snap, plist := pulseList s.params s.snap }

/-- STATUS's body (spec/45_sequencer.md R126). -/
def statusPulse (s : State) : State :=
  if s.params.hasStatus then statusWrite false (waitFor s.params.tStatusPulse (statusWrite true s)) else s

/-- WAIT's body: `PHASE <- WAIT`, then the first waking event. A spurious wake comes at its drawn time unless a TICK comes before
it; a TICK comes at `NEXT_FIRE` once the timer is armed and wakes the main context itself (R127, R81). With no event the main
context stays asleep (log 19). `DUE = 1` on entry wakes nothing (R127 (a), D10). -/
def sleepUntilWoken (s : State) : State :=
  match drawWake { s with phase := .wait, ctl := .wait } with
  | (some x, t) =>
    if t.armed && decide (t.nextFire < t.now + x) then tickFire { t with now := t.nextFire }
    else { t with now := t.now + x, ctl := .poll }
  | (none, t) => if t.armed then tickFire { t with now := t.nextFire } else t

/-- POLL's body: test and clear `DUE`, one atomic step (R128, spec/20_memory.md R50). -/
def pollDue (s : State) : State := if s.due then { s with due := false, ret := true } else { s with ret := false }

/-- One round of TXFRAME's loop: PULSE the pair, count the slot (R130). -/
def emitSlot (p : Pulse) (s : State) : State := nextSlot (pulseFor p s)

/-- TXFRAME's body: every pair of `PLIST` in list order (R130). -/
def transmitFrame (s : State) : State := s.plist.foldl (fun t p => emitSlot p t) (startFrame s)

/-- What SERVICE does after GATE: ENCODE and TXFRAME, or nothing; then back to WAIT (R129, R134). A TICK may come between any two
of them (spec/20_memory.md R48). -/
def finishService (s : State) : State :=
  if s.ret then toWait (transmitFrame (settleTick (encodeSnapshot (settleTick s)))) else toWait s

/-- SERVICE's body (R129), with a TICK admitted between SAMPLE and GATE (spec/20_memory.md R48). -/
def serveTick (s : State) : State := finishService (idleGate (settleTick (sampleInputs (enterService s))))

/-- What INIT does after ARM: on failure INIT_FAIL, else the feedback pulse and WAIT (R125). -/
def finishInit (s : State) : State := if s.ret then toWait (statusPulse s) else enterHalt s

/-- INIT's body on a well-formed parameter set (R125, spec/70_reset_and_hazards.md R168). -/
def startUp (s : State) : State := finishInit (armTimer (setLevel 0 (deriveCarrier { s with phase := .init })))

/-- Asserting reset: every element goes to its reset value at whatever moment; the parameters and the environment are not state
and stay (spec/70_reset_and_hazards.md R165, spec/10_state.md R29; log 17). -/
def assertReset (s : State) : State := State.afterReset s.params s.env (s.epoch + 1) s.drawIx

end Sys2Proof.Machine
end

