-- ==== Sys2Proof/Machine/Encoder.lean ====
section
/-! DEFINITION. The meaning of ENCODE (spec/43_encoder.md). -/

namespace Sys2Proof.Machine

open Sys2Proof

/-- ENCODE (R100): `SNAP` to `TXW` and `PLIST`. -/
def execEncode (s : State) : Host.Outcome State Fault Refusal := .next (encodeSnapshot s)

end Sys2Proof.Machine
end

