-- ==== Sys2Proof/Machine/IdleGate.lean ====
section
/-! DEFINITION. The meaning of GATE (spec/42_idle_gate.md). -/

namespace Sys2Proof.Machine

open Sys2Proof

/-- GATE (R95): count idle snapshots, decide transmit or suppress; the result is `ret`. -/
def execGate (s : State) : Host.Outcome State Fault Refusal := .next (idleGate s)

end Sys2Proof.Machine
end

