-- ==== Sys2Proof/Machine/Modulator.lean ====
section
/-! DEFINITION. The meanings of the Carrier Modulator's operations (spec/44_modulator.md): CARCFG, SETLVL, MARK, SPACE, PULSE. -/

namespace Sys2Proof.Machine

open Sys2Proof

/-- CARCFG (R110): derive `CAR_WRAP` and `CAR_ON`; a malformed parameter set is refused here, at configuration time (D27; log 2). -/
def execCarcfg (s : State) : Host.Outcome State Fault Refusal := 
  if s.params.wf then .next (deriveCarrier s) else .refused .malformedParams

/-- SETLVL v (R111). -/
def execSetlvl (v : Level) (s : State) : Host.Outcome State Fault Refusal := .next (setLevel (levelValue s v) s)

/-- MARK d (R112). -/
def execMark (d : Nat) (s : State) : Host.Outcome State Fault Refusal := .next (markFor d s)

/-- SPACE d (R113). -/
def execSpace (d : Nat) (s : State) : Host.Outcome State Fault Refusal := .next (spaceFor d s)

/-- PULSE m, s (R114): MARK m, then SPACE s. -/
def execPulse (m sp : Nat) (s : State) : Host.Outcome State Fault Refusal := .next (pulseFor ⟨m, sp⟩ s)

end Sys2Proof.Machine
end

