-- ==== Sys2Proof/Machine/Sampler.lean ====
section
/-! DEFINITION. The meaning of SAMPLE (spec/41_sampler.md). -/

namespace Sys2Proof.Machine

open Sys2Proof

/-- SAMPLE (R90): one bank read, `SNAP[11-k] <- NOT raw[CH[k]]`. -/
def execSample (s : State) : Host.Outcome State Fault Refusal := .next (sampleInputs s)

end Sys2Proof.Machine
end

