-- ==== Sys2Proof/Machine/Scheduler.lean ====
section
/-! DEFINITION. The meanings of the Frame Scheduler's operations (spec/40_scheduler.md): ARM and TICK. -/

namespace Sys2Proof.Machine

open Sys2Proof

/-- ARM (R80): ask the timer to fire every `T_FRAME`; the result is `ret`. -/
def execArm (s : State) : Host.Outcome State Fault Refusal := .next (armTimer s)

/-- TICK (R81), enabled iff `ARMED = 1` and `NOW = NEXT_FIRE`; where it is not enabled no TICK fires and nothing changes
(R86, R143; log 12). -/
def execTick (s : State) : Host.Outcome State Fault Refusal := .next (if tickEnabled s then tickFire s else s)

end Sys2Proof.Machine
end

