-- ==== Sys2Proof/Machine/Sequencer.lean ====
section
/-! DEFINITION. The meanings of the Sequencer's operations (spec/45_sequencer.md): INIT, STATUS, WAIT, POLL, SERVICE, TXFRAME, HALT. -/

namespace Sys2Proof.Machine

open Sys2Proof

/-- INIT (R125): CARCFG, SETLVL 0, ARM; on failure INIT_FAIL is taken, else STATUS and WAIT. CARCFG refuses a malformed parameter
set (D27; log 2). -/
def execInit (s : State) : Host.Outcome State Fault Refusal := 
  if s.params.wf then .next (startUp s) else .refused .malformedParams

/-- STATUS (R126): the one feedback pulse, iff `HAS_STATUS`. -/
def execStatus (s : State) : Host.Outcome State Fault Refusal := .next (statusPulse s)

/-- WAIT (R127): sleep until an interrupt. -/
def execWait (s : State) : Host.Outcome State Fault Refusal := .next (sleepUntilWoken s)

/-- POLL (R128): test and clear `DUE`; the result is `ret`. -/
def execPoll (s : State) : Host.Outcome State Fault Refusal := .next (pollDue s)

/-- SERVICE (R129): one tick's work. -/
def execService (s : State) : Host.Outcome State Fault Refusal := .next (serveTick s)

/-- TXFRAME (R130): the pulses of `PLIST`. -/
def execTxframe (s : State) : Host.Outcome State Fault Refusal := .next (transmitFrame s)

/-- HALT (R131): fatal stop. -/
def execHalt (s : State) : Host.Outcome State Fault Refusal := .next (enterHalt s)

end Sys2Proof.Machine
end

