-- ==== Sys2Proof/Machine/Wire.lean ====
section
/-! DEFINITION. The meanings of the wire items of spec/30_encoding.md: the frame, the frame word, the symbols and the id bit. A slot is
realised as its mark and its space (R68), by PULSE; the items write what PULSE writes and no register of the encoder or of TXFRAME
(spec/10_state.md R18, R19; log 14). -/

namespace Sys2Proof.Machine

open Sys2Proof

/-- FRAME: the 26 slots of the frame of `v`, back to back (R60, R66, R68). -/
def execFrame (v : Snapshot) (s : State) : Host.Outcome State Fault Refusal := .next (emitPulses (pulseList s.params v) s)

/-- TXW: the 25 bit slots of the frame word of `v`, bit 24 first (R65, R68). -/
def execTxw (v : Snapshot) (s : State) : Host.Outcome State Fault Refusal := .next (emitPulses (bitPulses s.params v) s)

/-- HDR: the header pulse (R61, R68). -/
def execHdr (s : State) : Host.Outcome State Fault Refusal := .next (emitPulses [s.params.dur .hdr] s)

/-- ZERO: a zero bit's short mark and long space (R61, R68). -/
def execZero (s : State) : Host.Outcome State Fault Refusal := .next (emitPulses [s.params.dur .zero] s)

/-- ONE: a one bit's long mark and shorter space (R61, R68). -/
def execOne (s : State) : Host.Outcome State Fault Refusal := .next (emitPulses [s.params.dur .one] s)

/-- ID: the identifier bit, always the symbol ZERO (R62, R68). -/
def execId (s : State) : Host.Outcome State Fault Refusal := .next (emitPulses [s.params.dur .zero] s)

end Sys2Proof.Machine
end

