-- ==== Sys2Proof/Machine/Dispatch.lean ====
section
/-! DEFINITION. One arm per constructor of `Instr`. -/

namespace Sys2Proof.Machine

def exec (i : Instr) (s : State) : Host.Outcome State Fault Refusal :=
  match i with
  | .frame v => Sys2Proof.Machine.execFrame v s
  | .txw v => Sys2Proof.Machine.execTxw v s
  | .hdr => Sys2Proof.Machine.execHdr s
  | .zero => Sys2Proof.Machine.execZero s
  | .one => Sys2Proof.Machine.execOne s
  | .id => Sys2Proof.Machine.execId s
  | .arm => Sys2Proof.Machine.execArm s
  | .tick => Sys2Proof.Machine.execTick s
  | .sample => Sys2Proof.Machine.execSample s
  | .gate => Sys2Proof.Machine.execGate s
  | .encode => Sys2Proof.Machine.execEncode s
  | .carcfg => Sys2Proof.Machine.execCarcfg s
  | .setlvl v => Sys2Proof.Machine.execSetlvl v s
  | .mark d => Sys2Proof.Machine.execMark d s
  | .space d => Sys2Proof.Machine.execSpace d s
  | .pulse m sp => Sys2Proof.Machine.execPulse m sp s
  | .init => Sys2Proof.Machine.execInit s
  | .status => Sys2Proof.Machine.execStatus s
  | .wait => Sys2Proof.Machine.execWait s
  | .poll => Sys2Proof.Machine.execPoll s
  | .service => Sys2Proof.Machine.execService s
  | .txframe => Sys2Proof.Machine.execTxframe s
  | .halt => Sys2Proof.Machine.execHalt s

end Sys2Proof.Machine
end

