-- ==== Sys2Proof/Machine/Control.lean ====
section
/-! DEFINITION. The main context's fixed program (spec/45_sequencer.md R132), line by line: which operation comes next, what INIT,
SERVICE and TXFRAME do around it, and the run of a presented word. The compound operations INIT, SERVICE, TXFRAME and PULSE are run
as the operations they consist of, so that the state between any two of those is a state of the machine (log 10). -/

namespace Sys2Proof.Machine

open Sys2Proof

/-- The operation the main context executes next; `none` where TXFRAME's loop has no
pair left (R125 to R132). -/
def nextOp (s : State) : Option Instr :=
  match s.ctl with
  | .boot => some .carcfg
  | .initLevel => some (.setlvl .off)
  | .initArm => some .arm
  | .initStatus => some .status
  | .wait => some .wait
  | .poll => some .poll
  | .sample => some .sample
  | .gate => some .gate
  | .encode => some .encode
  | .mark => (s.plist[s.slot]?).map fun p => .mark p.mark
  | .space => (s.plist[s.slot]?).map fun p => .space p.space

/-- What is done before the operation: INIT's `PHASE <- INIT` (R125). -/
def beforeOp (s : State) : State := if s.ctl = .boot then { s with phase := .init } else s

/-- What is done after the operation of control position `c`: the branches and the lines between operations of R125, R129, R130
and R132, and last the point at which a TICK may come before the next operation (spec/20_memory.md R48; log 7). Where the
operation ended with a wait, that point is the end of the wait; before ARM no TICK is enabled and after it the first is a period
away (spec/40_scheduler.md R80, R81). -/
def afterOp (c : Ctl) (t : State) : State :=
  match c with
  | .boot => { t with ctl := .initLevel }
  | .initLevel => { t with ctl := .initArm }
  | .initArm => if t.ret then { t with ctl := .initStatus } else enterHalt t
  | .initStatus => settleTick (toWait t)
  | .wait => settleTick t
  | .poll => if t.ret then { enterService t with ctl := .sample } else settleTick (toWait t)
  | .sample => settleTick { t with ctl := .gate }
  | .gate => settleTick (if t.ret then { t with ctl := .encode } else toWait t)
  | .encode => settleTick { startFrame t with ctl := .mark }
  | .mark => { t with ctl := .space }
  | .space => if t.slot + 1 < t.plist.length then { nextSlot t with ctl := .mark } else settleTick (toWait (nextSlot t))

/-- One step of the main context, with the interrupts its waits host. Without a pair left, TXFRAME ends and SERVICE with it. -/
def mainStep (s : State) : Host.Outcome State Fault Refusal :=
  match nextOp s with
  | none => .next (toWait s)
  | some i =>
    match exec i (beforeOp s) with
    | .next t => .next (afterOp s.ctl t)
    | .fault r => .fault r
    | .refused r => .refused r

/-- The run of a presented word: the item it decodes to, or a refusal by name (log 15). -/
def runWord (nbits w : Nat) (s : State) : Host.Outcome State Fault Refusal :=
  match decodeTableWord nbits w with
  | some i => exec i s
  | none => .refused .noEncoding

/-- One step of the block out of reset: HALT has none and answers its fault (R131, spec/93_implementation_defined.md U17; log 13);
a presented word is run; else the main context goes on. -/
def runStep (s : State) : Host.Outcome State Fault Refusal :=
  if s.halted then .fault .initFail
  else match s.port with
    | some (nbits, w) => runWord nbits w { s with port := none }
    | none => mainStep s

/-- A word stored where the next step takes it from (log 15). -/
def presentWord (s : State) (nbits w : Nat) : State := { s with port := some (nbits, w) }

end Sys2Proof.Machine
end

