-- ==== Sys2Proof/Machine/Step.lean ====
section
/-! DEFINITION. One step of IRTX: reset while it is asserted (spec/70_reset_and_hazards.md R165), else the block's own step. -/

namespace Sys2Proof.Machine

/-- One step of the machine. -/
def step (s : State) : Host.Outcome State Fault Refusal :=
  if s.env.resetIn then .next (assertReset s) else runStep s

/-- The state with a word presented, so that the next step runs the instruction it decodes to (log 15). -/
def State.withFetchWord (s : State) (nbits w : Nat) : State := presentWord s nbits w

end Sys2Proof.Machine
end

