-- ==== Sys2Proof/Machine/Output.lean ====
section
/-! DEFINITION. What can be observed of the block (spec/10_state.md R25, R26): the envelope, the carrier counter, the output line and
the feedback line, each at a time `t` up to `NOW`. -/

namespace Sys2Proof.Machine

open Sys2Proof

/-- The value the last event not after `t` left behind; `d` before any event. -/
def lastAt {α : Type} (d : α) (log : List (Nat × α)) (t : Nat) : α :=
  log.foldl (fun acc e => if e.1 ≤ t then e.2 else acc) d

/-- `CAR_LEVEL(t)`, from `TRACE` (R26). -/
def levelAt (s : State) (t : Nat) : Nat := lastAt 0 s.trace t

/-- `ENV(t)`: 1 iff the last event with time `≤ t` has a level other than 0 (R26). -/
def envelopeAt (s : State) (t : Nat) : Bool := decide (levelAt s t ≠ 0)

/-- How many PWM ticks have passed at `t` microseconds: `floor(t * PWM_TICK_HZ / 1000000)` (spec/44_modulator.md R116). -/
def pwmTicks (p : Params) (t : Nat) : Nat := (t * p.pwmNum) / (p.pwmDen * 1000000)

/-- `CAR_CNT(t) = (phi + floor(t * PWM_TICK_HZ / 1000000)) mod CAR_WRAP` (R116). -/
def carCntAt (s : State) (t : Nat) : Nat := (s.carPhi + pwmTicks s.params t) % s.carWrap

/-- `IR_OUT(t) = 1 iff CAR_CNT(t) < CAR_LEVEL(t)` (R116). -/
def irOutAt (s : State) (t : Nat) : Bool := decide (carCntAt s t < levelAt s t)

/-- `STATUS_OUT(t)` (R25 (c)). -/
def statusAt (s : State) (t : Nat) : Bool := lastAt false s.statusLog t

/-- `IR_OUT` during PWM tick `j` while the level is `CAR_ON` (R116, R117). -/
def carrierHigh (s : State) (j : Nat) : Bool := decide ((s.carPhi + j) % s.carWrap < s.carOn)

/-- The rising edges of `IR_OUT` in a mark that covers the PWM ticks `j` to `j + n - 1`: the mark's own start is one when it falls
inside the on-part of a carrier period (R117). -/
def risingEdges (s : State) (j n : Nat) : Nat :=
  ((List.range n).filter fun i => carrierHigh s (j + i) && (i == 0 || !carrierHigh s (j + i - 1))).length

end Sys2Proof.Machine
end

