-- ==== Sys2Proof/Safety.lean ====
section
/-! DEFINITION. The terms claims are made in: what the free-running timer does while time passes, what a busy wait leaves alone, the
events of a run of pulses, the fixed-rate law, and the invariant of the block. -/

namespace Sys2Proof.Machine

open Sys2Proof

/-- The block is out of reset and of HALT, and no word is presented: its step is the main context's. -/
def Running (s : State) : Prop := s.env.resetIn = false ∧ s.halted = false ∧ s.port = none

/-- The timer is not late: an armed timer's next nominal firing is not in the past, and its period is positive
(spec/40_scheduler.md R81, R82, spec/00_scope.md R4). -/
def State.Timely (s : State) : Prop := s.armed = true → 0 < s.params.tFrame ∧ s.now ≤ s.nextFire

/-- What the timer did between `s` and `t`: `n` TICKs fired, each at its nominal time, one period apart from `s.nextFire` on (R82);
`DUE` is 1 after the first of them (R81); none fires unarmed; none is in the future and none due before `t.now` is missing. A TICK
at the very instant `t.now` may or may not have fired yet (spec/60_exceptions.md R144). -/
def TimerRan (s t : State) : Prop :=
  ∃ n : Nat,
    t.ticks = s.ticks ++ (List.range n).map (fun k => s.nextFire + k * s.params.tFrame)
    ∧ t.nextFire = s.nextFire + n * s.params.tFrame
    ∧ t.due = (s.due || decide (0 < n))
    ∧ (s.armed = false → n = 0)
    ∧ (s.armed = true → t.now ≤ t.nextFire ∧ ∀ k < n, s.nextFire + k * s.params.tFrame ≤ t.now)

/-- Between `s` and `t` only time, the timer, the order draws and the wake of a sleeping main context changed; every other field of
`t` is `s`'s. -/
def WaitFrame (s t : State) : Prop :=
  t = { s with
        now := t.now, due := t.due, nextFire := t.nextFire, ticks := t.ticks, ctl := t.ctl
        env := { s.env with orders := t.env.orders }, drawIx := t.drawIx }
  ∧ (t.ctl = s.ctl ∨ (s.phase = .wait ∧ t.ctl = .poll))

/-- `t` is `s` after exactly `d` microseconds in which the main context did nothing else (spec/00_scope.md R9 `wait(d)`,
spec/44_modulator.md R115). -/
def Elapsed (d : Nat) (s t : State) : Prop := t.now = s.now + d ∧ TimerRan s t ∧ WaitFrame s t

/-- The TRACE events of a run of pulses that begins at `t0`, with carrier level `on` in the marks (spec/45_sequencer.md R130). -/
def pulseEvents (on : Nat) : Nat → List Pulse → List (Nat × Nat)
  | _, [] => []
  | t0, p :: ps => (t0, on) :: (t0 + p.mark, 0) :: pulseEvents on (t0 + p.mark + p.space) ps

/-- How long a run of pulses lasts. -/
def pulseTime (ps : List Pulse) : Nat := (ps.map fun p => p.mark + p.space).sum

/-- Every event of a history lies at or before `t`. -/
def AllBy {α : Type} (log : List (Nat × α)) (t : Nat) : Prop := ∀ e ∈ log, e.1 ≤ t

/-- The results of `k` successive GATE executions on the same snapshot. -/
def gateRun : Nat → State → List Bool
  | 0, _ => []
  | k + 1, s =>
    match exec .gate s with
    | .next t => t.ret :: gateRun k t
    | .fault _ => []
    | .refused _ => []

/-- The fixed-rate law of a timer armed at `tArm`: the `k`-th TICK fired at `tArm + k * T_FRAME`, and the next one is nominal one
period after the last (spec/40_scheduler.md R82). -/
def FixedRate (tArm : Nat) (s : State) : Prop :=
  s.nextFire = tArm + (s.ticks.length + 1) * s.params.tFrame
  ∧ s.ticks = (List.range s.ticks.length).map fun k => tArm + (k + 1) * s.params.tFrame

/-- The PHASE of a control position (spec/10_state.md R20). -/
def phaseOf : Ctl → Phase
  | .boot => .reset
  | .initLevel => .init
  | .initArm => .init
  | .initStatus => .init
  | .wait => .wait
  | .poll => .wait
  | .sample => .service
  | .gate => .service
  | .encode => .service
  | .mark => .tx
  | .space => .tx

/-- The control positions before ARM has answered (spec/45_sequencer.md R125). -/
def beforeArm : Ctl → Bool
  | .boot => true
  | .initLevel => true
  | .initArm => true
  | .initStatus => false
  | .wait => false
  | .poll => false
  | .sample => false
  | .gate => false
  | .encode => false
  | .mark => false
  | .space => false

/-- The instructions that put pulses on the wire, and so write the level, its history and `SEG` (spec/44_modulator.md R112 to R114,
spec/45_sequencer.md R129, R130; the wire items by log 14). -/
def emits : Instr → Bool
  | .frame _ => true
  | .txw _ => true
  | .hdr => true
  | .zero => true
  | .one => true
  | .id => true
  | .mark _ => true
  | .space _ => true
  | .pulse _ _ => true
  | .service => true
  | .txframe => true
  | .arm => false
  | .tick => false
  | .sample => false
  | .gate => false
  | .encode => false
  | .carcfg => false
  | .setlvl _ => false
  | .init => false
  | .status => false
  | .wait => false
  | .poll => false
  | .halt => false

/-- The invariant of the block: what every step keeps. -/
structure BlockInv (s : State) : Prop where
  /-- `PLIST` is a list of 26 pairs (R18). -/
  plist_length : s.plist.length = 26
  /-- `SLOT` is 0 to 26 (R19). -/
  slot_le : s.slot ≤ 26
  /-- While a pair is being emitted, `SLOT` is at most 25 (R19). -/
  slot_lt : s.ctl = .mark ∨ s.ctl = .space → s.slot < 26
  /-- `HALTED = 1` iff `PHASE = HALT` (R23). -/
  halted_iff : s.halted = true ↔ s.phase = .halt
  /-- Out of HALT, `PHASE` is the control position's (R20). -/
  phase_eq : s.halted = false → s.phase = phaseOf s.ctl
  /-- A halted block was never armed (R86, R131). -/
  halted_unarmed : s.halted = true → beforeArm s.ctl = true
  /-- The line is at rest except between a MARK and its SPACE, where the level is `CAR_ON` (R118, R13). -/
  level_at_rest : s.carLevel = 0 ∨ (s.ctl = .space ∧ s.carLevel = s.carOn)
  /-- `CAR_LEVEL` is what the last event of `TRACE` wrote; 0 before any (R26). -/
  level_traced : s.carLevel = (s.trace.getLast?.map Prod.snd).getD 0
  /-- No event lies in the future (R26). -/
  trace_past : AllBy s.trace s.now
  /-- The timer is armed exactly after ARM succeeded (R21, R143). -/
  armed_iff : s.armed = !beforeArm s.ctl
  /-- The timer is not late (R82). -/
  timely : s.armed = true → s.now ≤ s.nextFire
  /-- Before arming nothing is pending and no TICK has fired (R143). -/
  unarmed_quiet : s.armed = false → s.due = false ∧ s.ticks = []
  /-- The feedback line is inactive between operations (R126). -/
  status_off : s.statusOut = false
  /-- Past CARCFG the parameter set is well formed and the carrier constants are derived from it (R16, R110). -/
  configured : s.ctl ≠ .boot → s.params.wf = true ∧ s.carWrap = s.params.carWrap ∧ s.carOn = s.params.carOn
  /-- ENCODE and TXFRAME are reached only when GATE said transmit (R20, R129). -/
  gate_passed : s.ctl = .encode ∨ s.ctl = .mark ∨ s.ctl = .space → s.ret = true
  /-- During TXFRAME the pulse list is the frame of the snapshot (R18, R66). -/
  frame_held : s.ctl = .mark ∨ s.ctl = .space → s.txw = frameWord s.snap ∧ s.plist = pulseList s.params s.snap

end Sys2Proof.Machine
end

