-- ==== Sys2Proof/Certificates/Slice0/Obligations.lean ====
section
/-! DEFINITION. What is claimed of the model, statement by statement, for the provers. OBLIGATIONS.json gives each its rules. -/

open Sys2Proof Sys2Proof.Machine

/-! ## The frame format -/

/-- Decoding what the encoder writes gives the item back, with every operand at every value (R60, R65, R71). -/
def Obligations.DecodeOfEncodedItem : Prop :=
  ∀ (i : Instr) (slot : Nat) (syms : List SlotSym), encode i = some (slot, syms) → decodeRun slot syms = .ok i

/-- Every run the decoder accepts is the encoder's own, or a lone bit of one of the slots 2 to 25: each run has one meaning and
nothing else is accepted (R60, R67). -/
def Obligations.DecodedRunIsItsEncoding : Prop :=
  ∀ (slot : Nat) (syms : List SlotSym) (i : Instr), decodeRun slot syms = .ok i →
    encode i = some (slot, syms)
      ∨ (2 ≤ slot ∧ slot ≤ 25 ∧ ((i = .zero ∧ syms = [.zero]) ∨ (i = .one ∧ syms = [.one])))

/-- R64 and R65: the check field is the complement, bit for bit; the frame word is id 0, data, check; bit slot `s` carries bit
`25 - s`; as a number it is `v * 4096 + (4095 - v)`. -/
def Obligations.FrameWordAndCheckField : Prop :=
  ∀ v : Snapshot,
    checkField v = (~~~v) &&& 0xFFF#12
    ∧ (∀ i < 12, (checkField v).getLsbD i = !v.getLsbD i)
    ∧ (frameWord v).getLsbD 24 = false
    ∧ (frameWord v).extractLsb' 12 12 = v
    ∧ (frameWord v).extractLsb' 0 12 = checkField v
    ∧ (∀ s, 1 ≤ s → s ≤ 25 → (bitSyms (frameWord v))[s - 1]? = some (symOf ((frameWord v).getLsbD (25 - s))))
    ∧ (frameWord v).toNat = v.toNat * 4096 + (4095 - v.toNat)

/-- R66: the pulse list, in both of the rule's forms. -/
def Obligations.PulseListLayout : Prop :=
  ∀ (p : Params) (v : Snapshot),
    pulseList p v
        = p.dur .hdr :: (List.range' 1 25).map (fun s => p.dur (symOf ((frameWord v).getLsbD (25 - s))))
    ∧ (pulseList p v).length = 26
    ∧ (pulseList p v)[0]? = some ⟨p.tHdrMark, p.tHdrSpace⟩
    ∧ (pulseList p v)[1]? = some ⟨p.tZeroMark, p.tZeroSpace⟩
    ∧ ∀ j < 12,
        (pulseList p v)[2 + j]?
            = some (if v.getLsbD (11 - j) then ⟨p.tOneMark, p.tOneSpace⟩ else ⟨p.tZeroMark, p.tZeroSpace⟩)
        ∧ (pulseList p v)[14 + j]?
            = some (if v.getLsbD (11 - j) then ⟨p.tZeroMark, p.tZeroSpace⟩ else ⟨p.tOneMark, p.tOneSpace⟩)

/-- R69: the active duration, the numbers of ZERO and ONE symbols, the total mark time, the number of marks and the slot offsets are
the same for every snapshot. -/
def Obligations.FrameTotals : Prop :=
  ∀ (p : Params) (v : Snapshot), p.bitsOk = true →
    pulseTime (pulseList p v) = p.tActive
    ∧ p.tActive = p.tFrame - p.tGap
    ∧ (frameSyms v).count .one = 12
    ∧ (frameSyms v).count .zero = 13
    ∧ ((pulseList p v).map Pulse.mark).sum = p.tHdrMark + 13 * p.tZeroMark + 12 * p.tOneMark
    ∧ (∀ on t0 : Nat, 0 < on → ((pulseEvents on t0 (pulseList p v)).filter fun e => e.2 ≠ 0).length = 26)
    ∧ ∀ s, 1 ≤ s → s ≤ 25 →
        pulseTime ((pulseList p v).take s) = p.tHdrMark + p.tHdrSpace + (s - 1) * p.tBit

/-- R102: distinct snapshots have distinct frame words, and their pulse lists differ in a data slot and in the matching check
slot. -/
def Obligations.EncodingInjective : Prop :=
  ∀ (p : Params) (v w : Snapshot), p.bitsOk = true → v ≠ w →
    frameWord v ≠ frameWord w
    ∧ ∃ j < 12, (pulseList p v)[2 + j]? ≠ (pulseList p w)[2 + j]? ∧ (pulseList p v)[14 + j]? ≠ (pulseList p w)[14 + j]?

/-- R67: an id bit of 1, a check field that is not the complement, and a frame that is not 26 slots long are no items. -/
def Obligations.IllFormedRunsRejected : Prop :=
  (∀ w : FrameWord, w.getLsbD 24 = true → decodeRun 1 (bitSyms w) = .error .idNotZero)
  ∧ (∀ w : FrameWord, w.getLsbD 24 = false → w.extractLsb' 0 12 ≠ checkField (w.extractLsb' 12 12) →
      decodeRun 1 (bitSyms w) = .error .checkMismatch)
  ∧ (∀ (syms : List SlotSym) (v : Snapshot), syms.length ≠ 26 → decodeRun 0 syms ≠ .ok (.frame v))

/-- R71: the receiver-side inverse recovers the snapshot from the mark durations of its frame. -/
def Obligations.ReceiverInverse : Prop :=
  ∀ (p : Params) (v : Snapshot), p.bitsOk = true → decodeMarks p ((pulseList p v).map Pulse.mark) = .ok (.frame v)

/-- The opcode-table words of the items decode to the items (log 15). -/
def Obligations.TableWordRoundTrip : Prop :=
  ∀ (i : Instr) (nbits w : Nat), encodeWord i = some (nbits, w) → decodeTableWord nbits w = some i

/-- Words written out from the spec's encodings (V-ENC-3, V-ENC-4, R60, R61, R62) decode to the items they stand for. -/
def Obligations.SampleWordsDecode : Prop :=
  decodeTableWord 32 0x0005FFA = some (.txw 0x005)
  ∧ decodeTableWord 32 0x0A5C5A3 = some (.txw 0xA5C)
  ∧ decodeTableWord 8 0 = some .zero
  ∧ decodeTableWord 8 1 = some .one
  ∧ (decodeRun 0 [.hdr]).toOption = some .hdr
  ∧ (decodeRun 1 [.zero]).toOption = some .id

/-! ## The wire items -/

/-- FRAME completes: the 26 slots of the frame of `v` are emitted back to back in `T_FRAME - T_GAP` microseconds; nothing but the
modulator's state and the passing of time changes. That the item writes no register of TXFRAME is the model's (log 14). -/
def Obligations.FrameItemEmitsFrame : Prop :=
  ∀ (v : Snapshot) (s : State), s.Timely → s.params.bitsOk = true →
    ∃ t, exec (.frame v) s = .next t
      ∧ Elapsed (s.params.tFrame - s.params.tGap)
          { s with seg := .spaceSeg, carLevel := 0, trace := s.trace ++ pulseEvents s.carOn s.now (pulseList s.params v) } t

/-- TXW completes: the 25 bits of the frame word of `v` go out from bit 24 to bit 0, each in `T_BIT` microseconds (R65; log 14). -/
def Obligations.FrameWordItemEmitsBitSlots : Prop :=
  ∀ (v : Snapshot) (s : State), s.Timely → s.params.bitsOk = true →
    ∃ t, exec (.txw v) s = .next t
      ∧ Elapsed (25 * s.params.tBit)
          { s with
            seg := .spaceSeg, carLevel := 0
            trace := s.trace ++ pulseEvents s.carOn s.now
              ((List.range 25).map fun i => s.params.dur (symOf ((frameWord v).getLsbD (24 - i)))) } t

/-- HDR, ZERO, ONE and ID complete: each is the mark and the space of its symbol, ID's being ZERO (R61, R62, R68; log 14). -/
def Obligations.SymbolItemsEmitOnePulse : Prop :=
  ∀ s : State, s.Timely →
    (∃ t, exec .hdr s = .next t ∧ Elapsed (s.params.tHdrMark + s.params.tHdrSpace)
      { s with seg := .spaceSeg, carLevel := 0
               trace := s.trace ++ [(s.now, s.carOn), (s.now + s.params.tHdrMark, 0)] } t)
    ∧ (∃ t, exec .zero s = .next t ∧ Elapsed (s.params.tZeroMark + s.params.tZeroSpace)
      { s with seg := .spaceSeg, carLevel := 0
               trace := s.trace ++ [(s.now, s.carOn), (s.now + s.params.tZeroMark, 0)] } t)
    ∧ (∃ t, exec .one s = .next t ∧ Elapsed (s.params.tOneMark + s.params.tOneSpace)
      { s with seg := .spaceSeg, carLevel := 0
               trace := s.trace ++ [(s.now, s.carOn), (s.now + s.params.tOneMark, 0)] } t)
    ∧ (∃ t, exec .id s = .next t ∧ Elapsed (s.params.tZeroMark + s.params.tZeroSpace)
      { s with seg := .spaceSeg, carLevel := 0
               trace := s.trace ++ [(s.now, s.carOn), (s.now + s.params.tZeroMark, 0)] } t)

/-! ## The scheduler -/

/-- R80: ARM arms the timer one period ahead iff `ARM_OK`, else it leaves it and answers fail; nothing else changes. -/
def Obligations.ArmResult : Prop :=
  ∀ s : State,
    (s.env.armOk = true →
      exec .arm s = .next { s with armed := true, nextFire := s.now + s.params.tFrame, ret := true })
    ∧ (s.env.armOk = false → exec .arm s = .next { s with ret := false })

/-- R81: an enabled TICK sets `DUE`, moves `NEXT_FIRE` one period on, notes the time and wakes a main context in WAIT; nothing
else changes. -/
def Obligations.TickEffect : Prop :=
  ∀ s : State, s.armed = true → s.now = s.nextFire →
    exec .tick s = .next
      { s with
        due := true, nextFire := s.nextFire + s.params.tFrame, ticks := s.ticks ++ [s.now]
        ctl := if s.phase = .wait then .poll else s.ctl }

/-- Where TICK is not enabled no TICK fires and nothing changes (R86, R143; the model's reading, log 12). -/
def Obligations.TickWhenNotEnabled : Prop :=
  ∀ s : State, s.armed = false ∨ s.now ≠ s.nextFire → exec .tick s = .next s

/-- R83: however many TICKs fired during a space, one POLL answers true and the next one false; the missed ones move no later
TICK. -/
def Obligations.TicksCoalesce : Prop :=
  ∀ (d : Nat) (s t : State), s.Timely → exec (.space d) s = .next t → s.ticks.length < t.ticks.length →
    t.due = true
    ∧ t.nextFire = s.nextFire + (t.ticks.length - s.ticks.length) * s.params.tFrame
    ∧ ∃ u w, exec .poll t = .next u ∧ u.ret = true ∧ exec .poll u = .next w ∧ w.ret = false

/-- R82: with `t_arm` the time of ARM, the `k`-th TICK fires at `t_arm + k * T_FRAME`; every step of the armed block keeps it so,
whatever the main context does. -/
def Obligations.FixedRateKept : Prop :=
  (∀ s t : State, s.env.armOk = true → s.ticks = [] → exec .arm s = .next t → FixedRate s.now t)
  ∧ ∀ (tArm : Nat) (s t : State), BlockInv s → s.armed = true → FixedRate tArm s → step s = .next t → t.armed = true →
      FixedRate tArm t

/-! ## The sampler, the gate and the encoder -/

/-- R90: with the lines steady at the sampling instant, snapshot bit `11-k` is the inverse of line `CH[k]`; only `SNAP` is
written. -/
def Obligations.SampleSteadyLines : Prop :=
  ∀ s : State, s.params.mapOk = true → inRawBefore s s.now = inRaw s s.now →
    ∃ v : Snapshot, exec .sample s = .next { s with snap := v }
      ∧ ∀ k < 12, v.getLsbD (11 - k) = !(inRaw s s.now).getLsbD (s.params.channelMap.getD k 0)

/-- R90 (d): whatever the lines do at the sampling instant, each snapshot bit is the inverse of its line's level just before or at
that instant; only `SNAP` is written. -/
def Obligations.SampleChangingLines : Prop :=
  ∀ s : State, s.params.mapOk = true →
    ∃ v : Snapshot, exec .sample s = .next { s with snap := v }
      ∧ ∀ k < 12,
          v.getLsbD (11 - k) = !(inRaw s s.now).getLsbD (s.params.channelMap.getD k 0)
          ∨ v.getLsbD (11 - k) = !(inRawBefore s s.now).getLsbD (s.params.channelMap.getD k 0)

/-- R95: GATE on a non-zero snapshot and on the zero snapshot, the switch `IDLE_COMPARE_PRE` and its default included; only
`IDLE_CNT` and the result are written. -/
def Obligations.GateRule : Prop :=
  ∀ s : State,
    (s.snap ≠ 0 → exec .gate s = .next { s with idleCnt := 0, ret := true })
    ∧ (s.snap = 0 → s.params.idleComparePre = false →
        exec .gate s = .next { s with idleCnt := s.idleCnt + 1, ret := decide (s.idleCnt + 1 < s.params.idleThreshold) })
    ∧ (s.snap = 0 → s.params.idleComparePre = true →
        exec .gate s = .next { s with idleCnt := s.idleCnt + 1, ret := decide (s.idleCnt < s.params.idleThreshold) })
    ∧ State.reset.params.idleComparePre = false

/-- R96: of `K` consecutive zero snapshots after the counter was 0, exactly the first `min(K, N-1)` are transmitted; under the
losing reading of C4, exactly the first `min(K, N)`. -/
def Obligations.IdleCountingLaw : Prop :=
  ∀ (s : State) (K : Nat), s.snap = 0 → s.idleCnt = 0 → 1 ≤ s.params.idleThreshold →
    (s.params.idleComparePre = false →
      gateRun K s = (List.range K).map (fun k => decide (k + 1 < s.params.idleThreshold))
      ∧ (gateRun K s).count true = min K (s.params.idleThreshold - 1))
    ∧ (s.params.idleComparePre = true →
      gateRun K s = (List.range K).map (fun k => decide (k < s.params.idleThreshold))
      ∧ (gateRun K s).count true = min K s.params.idleThreshold)

/-- R100: ENCODE writes the frame word `{0, data, check}` and the header pair followed by a pair per bit, and nothing else. -/
def Obligations.EncodeWritesFrame : Prop :=
  ∀ s : State, ∃ (w : FrameWord) (ps : List Pulse),
    exec .encode s = .next { s with txw := w, plist := ps }
    ∧ w.getLsbD 24 = false ∧ w.extractLsb' 12 12 = s.snap ∧ w.extractLsb' 0 12 = (~~~s.snap) &&& 0xFFF#12
    ∧ ps = ⟨s.params.tHdrMark, s.params.tHdrSpace⟩ :: (List.range' 1 25).map (fun k =>
        if w.getLsbD (25 - k) = false then ⟨s.params.tZeroMark, s.params.tZeroSpace⟩
        else ⟨s.params.tOneMark, s.params.tOneSpace⟩)

/-! ## The modulator -/

/-- R110: CARCFG derives the carrier constants of a well-formed parameter set, which meet its `require`; a malformed set is refused
(D27). -/
def Obligations.CarcfgDerivesOrRefuses : Prop :=
  ∀ s : State,
    (s.params.wf = true →
      2 ≤ s.params.carWrap ∧ 0 < s.params.carOn ∧ s.params.carOn < s.params.carWrap
      ∧ exec .carcfg s = .next
          { s with
            carWrap := (s.params.pwmNum * s.params.fCarrierDen) / (s.params.pwmDen * s.params.fCarrierNum)
            carOn := ((s.params.pwmNum * s.params.fCarrierDen) / (s.params.pwmDen * s.params.fCarrierNum)
              * s.params.dutyNum) / s.params.dutyDen })
    ∧ (s.params.wf = false → exec .carcfg s = .refused .malformedParams ∧ exec .init s = .refused .malformedParams)

/-- R111: SETLVL writes 0 or `CAR_ON`, appends the event, and changes nothing else. -/
def Obligations.SetlvlWritesLevel : Prop :=
  ∀ s : State,
    exec (.setlvl .off) s = .next { s with carLevel := 0, trace := s.trace ++ [(s.now, 0)] }
    ∧ exec (.setlvl .on) s = .next { s with carLevel := s.carOn, trace := s.trace ++ [(s.now, s.carOn)] }

/-- R112: MARK puts the level to `CAR_ON` and holds it for exactly `d` microseconds, whatever fires meanwhile; the envelope is 1
throughout. -/
def Obligations.MarkHoldsCarrier : Prop :=
  ∀ (d : Nat) (s : State), s.Timely →
    ∃ t, exec (.mark d) s = .next t
      ∧ Elapsed d { s with seg := .markSeg, carLevel := s.carOn, trace := s.trace ++ [(s.now, s.carOn)] } t
      ∧ (0 < s.carOn → ∀ x, s.now ≤ x → x < s.now + d → envelopeAt t x = true)

/-- R113: SPACE puts the level to 0 and holds it for exactly `d` microseconds, whatever fires meanwhile; the envelope and the line
are 0 throughout. -/
def Obligations.SpaceSilences : Prop :=
  ∀ (d : Nat) (s : State), s.Timely →
    ∃ t, exec (.space d) s = .next t
      ∧ Elapsed d { s with seg := .spaceSeg, carLevel := 0, trace := s.trace ++ [(s.now, 0)] } t
      ∧ ∀ x, s.now ≤ x → x < s.now + d → envelopeAt t x = false ∧ irOutAt t x = false

/-- R114: PULSE is MARK then SPACE; it lasts exactly `m + sp` microseconds and leaves the level at 0. -/
def Obligations.PulseIsMarkThenSpace : Prop :=
  ∀ (m sp : Nat) (s : State), s.Timely →
    ∃ u t, exec (.mark m) s = .next u ∧ exec (.space sp) u = .next t ∧ exec (.pulse m sp) s = .next t
      ∧ Elapsed (m + sp)
          { s with seg := .spaceSeg, carLevel := 0, trace := s.trace ++ [(s.now, s.carOn), (s.now + m, 0)] } t

/-- R68: a slot is the envelope held at 1 for the mark and at 0 for the space; the line carries the carrier in the one and is
inactive in the other. That the line in the mark is the comparison of `CAR_CNT` with the level is R116's form, a decision of the spec
(D4) that the model follows (log 8, unsafe inside a mark). -/
def Obligations.PulseEnvelope : Prop :=
  ∀ (m sp : Nat) (s t : State), AllBy s.trace s.now → 0 < s.carOn → exec (.pulse m sp) s = .next t →
    (∀ x, s.now ≤ x → x < s.now + m →
      envelopeAt t x = true ∧ irOutAt t x = decide (carCntAt t x < s.carOn))
    ∧ ∀ x, s.now + m ≤ x → x < s.now + m + sp → envelopeAt t x = false ∧ irOutAt t x = false

/-- R130: the envelope of TXFRAME: slot after slot, carrier on for each pair's mark and off for its space, back to back. -/
def Obligations.FrameEnvelope : Prop :=
  ∀ s t : State, AllBy s.trace s.now → 0 < s.carOn → exec .txframe s = .next t →
    ∀ (k : Nat) (p : Pulse), s.plist[k]? = some p →
      (∀ x, s.now + pulseTime (s.plist.take k) ≤ x → x < s.now + pulseTime (s.plist.take k) + p.mark →
        envelopeAt t x = true)
      ∧ ∀ x, s.now + pulseTime (s.plist.take k) + p.mark ≤ x →
          x < s.now + pulseTime (s.plist.take k) + p.mark + p.space → envelopeAt t x = false

/-- R116: in a mark the line at time `x` is what the carrier gives at PWM tick `floor(x * PWM_TICK_HZ / 1000000)`, and the carrier
is a square wave of period `CAR_WRAP` PWM ticks, high for `CAR_ON` of any `CAR_WRAP` successive ones, whatever the phase. The
comparator form is a decision of the spec (D4) that the model follows (log 8). -/
def Obligations.CarrierSquareWave : Prop :=
  ∀ s : State, s.carOn < s.carWrap →
    (∀ (d : Nat) (t : State), exec (.mark d) s = .next t → ∀ x, s.now ≤ x → x < s.now + d →
      irOutAt t x = carrierHigh s ((x * s.params.pwmNum) / (s.params.pwmDen * 1000000)))
    ∧ ∀ j : Nat,
      carrierHigh s j = decide ((s.carPhi + j) % s.carWrap < s.carOn)
      ∧ carrierHigh s (j + s.carWrap) = carrierHigh s j
      ∧ ((List.range s.carWrap).filter fun i => carrierHigh s (j + i)).length = s.carOn

/-- R117: a mark that covers the `n` PWM ticks from `j` on (CarrierSquareWave says what the line is in each) has at least
`floor(n / P)` and at most `ceil(n / P) + 1` rising edges, with `P = CAR_WRAP`, whatever the phase (R116's form, log 8). -/
def Obligations.RisingEdgesBound : Prop :=
  ∀ (s : State) (j n : Nat), 0 < s.carOn → s.carOn < s.carWrap →
    n / s.carWrap ≤ risingEdges s j n ∧ risingEdges s j n ≤ (n + s.carWrap - 1) / s.carWrap + 1

/-! ## The sequencer -/

/-- R125: INIT with the timer armed: carrier configured and forced off, timer armed one period ahead, the feedback pulse iff
`HAS_STATUS`, then WAIT; `IDLE_CNT` and, unless a TICK fires in the pulse, `DUE` keep their values. A TICK that fires in the pulse
does not wake the WAIT entered after it. -/
def Obligations.InitSucceeds : Prop :=
  ∀ s : State, s.params.wf = true → s.env.armOk = true →
    (s.params.hasStatus = true →
      ∃ t, exec .init s = .next t
        ∧ Elapsed s.params.tStatusPulse
            { s with
              phase := .wait, ctl := .wait, ret := true
              carWrap := s.params.carWrap, carOn := s.params.carOn
              carLevel := 0, trace := s.trace ++ [(s.now, 0)]
              armed := true, nextFire := s.now + s.params.tFrame
              statusOut := false
              statusLog := s.statusLog ++ [(s.now, true), (s.now + s.params.tStatusPulse, false)] } t
        ∧ t.ctl = .wait)
    ∧ (s.params.hasStatus = false →
        exec .init s = .next
          { s with
            phase := .wait, ctl := .wait, ret := true
            carWrap := s.params.carWrap, carOn := s.params.carOn
            carLevel := 0, trace := s.trace ++ [(s.now, 0)]
            armed := true, nextFire := s.now + s.params.tFrame })

/-- R140, R131: when the timer cannot be armed INIT takes INIT_FAIL: HALT, emitter dark, timer not armed, no feedback pulse. -/
def Obligations.InitFailureHalts : Prop :=
  ∀ s : State, s.params.wf = true → s.env.armOk = false →
    exec .init s = .next
      { s with
        phase := .halt, halted := true, ret := false
        carWrap := s.params.carWrap, carOn := s.params.carOn
        carLevel := 0, trace := s.trace ++ [(s.now, 0)] }

/-- R126: with the feedback line, STATUS is one pulse of exactly `T_STATUS_PULSE`; without it, nothing. -/
def Obligations.StatusGivesOnePulse : Prop :=
  ∀ s : State,
    (s.params.hasStatus = false → exec .status s = .next s)
    ∧ (s.params.hasStatus = true → s.Timely → AllBy s.statusLog s.now →
        ∃ t, exec .status s = .next t
          ∧ Elapsed s.params.tStatusPulse
              { s with
                statusOut := false
                statusLog := s.statusLog ++ [(s.now, true), (s.now + s.params.tStatusPulse, false)] } t
          ∧ (∀ x, s.now ≤ x → x < s.now + s.params.tStatusPulse → statusAt t x = true)
          ∧ ∀ x, s.now + s.params.tStatusPulse ≤ x → statusAt t x = false)

/-- R127: with the timer armed and no spurious wake before it, WAIT is ended by the next TICK, at `NEXT_FIRE`, whether or not `DUE`
was 1 on entry; control continues at POLL. -/
def Obligations.WaitEndsAtTick : Prop :=
  ∀ s : State, s.armed = true → (∀ x, (drawWake s).1 = some x → s.nextFire < s.now + x) →
    exec .wait s = .next
      { s with
        phase := .wait, ctl := .poll, now := s.nextFire
        due := true, nextFire := s.nextFire + s.params.tFrame, ticks := s.ticks ++ [s.nextFire]
        env := { s.env with wakes := (drawWake s).2.env.wakes }, drawIx := (drawWake s).2.drawIx }

/-- R127 (b): a spurious wake not after the next TICK ends WAIT at its drawn time and changes nothing but time; without an armed
timer and without such a wake the main context sleeps on (log 19). That a wake drawn for the very time of the TICK ends WAIT with the
TICK still to fire is the model's choice (log 7); the step then lets the TICK come before or after the POLL. -/
def Obligations.WaitWithoutTick : Prop :=
  ∀ s : State,
    (∀ x, (drawWake s).1 = some x → (s.armed = true → s.now + x ≤ s.nextFire) →
      exec .wait s = .next
        { s with
          phase := .wait, ctl := .poll, now := s.now + x
          env := { s.env with wakes := (drawWake s).2.env.wakes }, drawIx := (drawWake s).2.drawIx })
    ∧ ((drawWake s).1 = none → s.armed = false →
        exec .wait s = .next
          { s with
            phase := .wait, ctl := .wait
            env := { s.env with wakes := (drawWake s).2.env.wakes }, drawIx := (drawWake s).2.drawIx })

/-- R128: POLL tests and clears `DUE` and answers what it was; nothing else changes. -/
def Obligations.PollTestsAndClears : Prop :=
  ∀ s : State, exec .poll s = .next { s with due := false, ret := s.due }

/-- R129, D11: a draw of `LAT` is in `0..L_MAX`, every member of the range can be drawn, and with `L_MAX` infinite every number. -/
def Obligations.LatencyDrawInRange : Prop :=
  ∀ s : State,
    (∀ n, s.params.lMax = some n → (drawLatency s).1 ≤ n)
    ∧ ∀ x, (∀ n, s.params.lMax = some n → x ≤ n) →
        (drawLatency { s with env := { s.env with lats := x :: s.env.lats } }).1 = x

/-- R129: a service whose gate says transmit: after the drawn latency the lines are sampled, the counter updated, the frame encoded
and all its 26 pulses emitted; then WAIT. The whole lasts the latency plus `T_FRAME - T_GAP`, and a TICK in it does
not wake the WAIT entered after it (R127 (a)). -/
def Obligations.ServiceTransmits : Prop :=
  ∀ (s : State) (lat : Nat) (v : Snapshot), s.Timely → s.params.bitsOk = true →
    lat = (drawLatency s).1 →
    v = snapshotOf s.params.channelMap (bankRead { s with now := s.now + lat }) →
    (v ≠ 0 ∨ (s.params.idleComparePre = false ∧ s.idleCnt + 1 < s.params.idleThreshold)
      ∨ (s.params.idleComparePre = true ∧ s.idleCnt < s.params.idleThreshold)) →
    ∃ t, exec .service s = .next t
      ∧ Elapsed (lat + (s.params.tFrame - s.params.tGap))
          { s with
            phase := .wait, ctl := .wait, ret := true
            snap := v, idleCnt := if v = 0 then s.idleCnt + 1 else 0
            txw := frameWord v, plist := pulseList s.params v
            slot := 26, seg := .spaceSeg, carLevel := 0
            trace := s.trace ++ pulseEvents s.carOn (s.now + lat) (pulseList s.params v)
            env := { s.env with lats := (drawLatency s).2.env.lats } } t
      ∧ t.ctl = .wait

/-- R134: a service whose gate says suppress: the snapshot is taken and counted, nothing is encoded or emitted, and the main context
is back in WAIT after the latency, asleep even if a TICK fired in it. -/
def Obligations.ServiceSuppresses : Prop :=
  ∀ (s : State) (lat : Nat), s.Timely →
    lat = (drawLatency s).1 →
    snapshotOf s.params.channelMap (bankRead { s with now := s.now + lat }) = 0 →
    ((s.params.idleComparePre = false ∧ s.params.idleThreshold ≤ s.idleCnt + 1)
      ∨ (s.params.idleComparePre = true ∧ s.params.idleThreshold ≤ s.idleCnt)) →
    ∃ t, exec .service s = .next t
      ∧ Elapsed lat
          { s with
            phase := .wait, ctl := .wait, ret := false
            snap := 0, idleCnt := s.idleCnt + 1
            env := { s.env with lats := (drawLatency s).2.env.lats } } t
      ∧ t.ctl = .wait

/-- R130: TXFRAME emits the 26 pairs of `PLIST` in list order, back to back; `SLOT` ends at 26 and `TRACE` gains 52 events. -/
def Obligations.TxframeEmitsPulseList : Prop :=
  ∀ s : State, s.Timely → s.plist.length = 26 →
    ∃ t, exec .txframe s = .next t
      ∧ Elapsed (pulseTime s.plist)
          { s with
            phase := .tx, slot := 26, seg := .spaceSeg, carLevel := 0
            trace := s.trace ++ pulseEvents s.carOn s.now s.plist } t
      ∧ t.trace.length = s.trace.length + 52

/-- R131: HALT writes `PHASE` and `HALTED` and nothing else. -/
def Obligations.HaltEntersHalt : Prop :=
  ∀ s : State, exec .halt s = .next { s with phase := .halt, halted := true }

/-! ## The step -/

/-- R132, with R125, R129 and R130: what the step of a running block does at each control position. It executes that position's
operation and goes on to the position the program says, on the result the operation returned; no time passes beside the operation's
own, and `Elapsed 0` is the point between two operations, at which a TICK due at this instant fires or is left over (R48, R144). The
last clause: after SAMPLE, GATE and ENCODE it is the order draw that says which, so either can be (log 7). The positions and the cut
of the program into steps are the model's (log 10). -/
def Obligations.StepRunsNextOperation : Prop :=
  ∀ s : State, Running s → s.Timely →
    (s.ctl = .boot → s.params.wf = true →
      ∃ t, exec .carcfg { s with phase := .init } = .next t ∧ step s = .next { t with ctl := .initLevel })
    ∧ (s.ctl = .initLevel → ∃ t, exec (.setlvl .off) s = .next t ∧ step s = .next { t with ctl := .initArm })
    ∧ (s.ctl = .initArm → ∃ t, exec .arm s = .next t
      ∧ (t.ret = true → step s = .next { t with ctl := .initStatus })
      ∧ (t.ret = false → exec .halt t = step s))
    ∧ (s.ctl = .initStatus → ∃ t u, exec .status s = .next t ∧ step s = .next u
      ∧ Elapsed 0 { t with phase := .wait, ctl := .wait } u)
    ∧ (s.ctl = .wait → ∃ t u, exec .wait s = .next t ∧ step s = .next u ∧ Elapsed 0 t u)
    ∧ (s.ctl = .poll → s.due = true → ∃ t u, exec .poll s = .next t ∧ step s = .next u
      ∧ Elapsed (drawLatency s).1
          { t with phase := .service, ctl := .sample, env := { t.env with lats := (drawLatency s).2.env.lats } } u)
    ∧ (s.ctl = .poll → s.due = false → ∃ t u, exec .poll s = .next t ∧ step s = .next u
      ∧ Elapsed 0 { t with phase := .wait, ctl := .wait } u)
    ∧ (s.ctl = .sample → ∃ t u, exec .sample s = .next t ∧ step s = .next u ∧ Elapsed 0 { t with ctl := .gate } u)
    ∧ (s.ctl = .gate → ∃ t u, exec .gate s = .next t ∧ step s = .next u
      ∧ (t.ret = true → Elapsed 0 { t with ctl := .encode } u)
      ∧ (t.ret = false → Elapsed 0 { t with phase := .wait, ctl := .wait } u))
    ∧ (s.ctl = .encode → ∃ t u, exec .encode s = .next t ∧ step s = .next u
      ∧ Elapsed 0 { t with phase := .tx, slot := 0, ctl := .mark } u)
    ∧ (s.ctl = .mark → ∀ p, s.plist[s.slot]? = some p →
      ∃ t, exec (.mark p.mark) s = .next t ∧ step s = .next { t with ctl := .space })
    ∧ (s.ctl = .space → ∀ p, s.plist[s.slot]? = some p → ∃ t u, exec (.space p.space) s = .next t ∧ step s = .next u
      ∧ (s.slot + 1 < s.plist.length → u = { t with slot := s.slot + 1, ctl := .mark })
      ∧ (s.slot + 1 = s.plist.length → Elapsed 0 { t with slot := s.slot + 1, phase := .wait, ctl := .wait } u))
    ∧ ∀ (b : Bool) (rest : List Bool), s.ctl = .sample ∨ s.ctl = .gate ∨ s.ctl = .encode →
        s.armed = true → s.now = s.nextFire → s.env.orders = b :: rest →
        ∃ u, step s = .next u ∧ u.env.orders = rest ∧ u.ticks = if b then s.ticks ++ [s.now] else s.ticks

/-- The step at a presented word executes the item it decodes to, on the state without the word; a word that decodes to nothing is
refused by name (log 15). -/
def Obligations.StepRunsPresentedWord : Prop :=
  ∀ (s : State) (nbits w : Nat), s.env.resetIn = false → s.halted = false →
    (∀ i, decodeTableWord nbits w = some i → step (s.withFetchWord nbits w) = exec i { s with port := none })
    ∧ (decodeTableWord nbits w = none → step (s.withFetchWord nbits w) = .refused .noEncoding)

/-- R131: a halted block has no step but reset: it answers its fault (log 13). -/
def Obligations.HaltedBlockHasNoStep : Prop :=
  ∀ s : State, s.halted = true → s.env.resetIn = false → step s = .fault .initFail

/-- R165: reset, asserted in any state, gives every element the value R29 states for it and keeps the parameters. -/
def Obligations.AssertedResetGivesResetValues : Prop :=
  ∀ s : State, s.env.resetIn = true →
    ∃ t, step s = .next t
      ∧ t.due = false ∧ t.idleCnt = 0 ∧ t.carLevel = 0 ∧ t.slot = 0 ∧ t.seg = .markSeg ∧ t.phase = .reset
      ∧ t.armed = false ∧ t.now = 0 ∧ t.halted = false ∧ t.statusOut = false ∧ t.trace = [] ∧ t.ticks = []
      ∧ t.params = s.params

/-- R29: the state right after reset, element by element, where the spec gives the value; the output line is 0. The parameters to which
R4's table gives a value or a default have it. -/
def Obligations.ResetStateValues : Prop :=
  State.reset.due = false ∧ State.reset.idleCnt = 0 ∧ State.reset.carLevel = 0 ∧ State.reset.slot = 0
  ∧ State.reset.seg = .markSeg ∧ State.reset.phase = .reset ∧ State.reset.armed = false ∧ State.reset.now = 0
  ∧ State.reset.halted = false ∧ State.reset.statusOut = false ∧ State.reset.trace = [] ∧ State.reset.ticks = []
  ∧ State.reset.params.idleThreshold = 4 ∧ State.reset.params.lMax = none ∧ State.reset.params.idleComparePre = false
  ∧ ∀ t, irOutAt State.reset t = false

/-- The invariant of the block holds right after reset. -/
def Obligations.ResetMeetsBlockInvariant : Prop := BlockInv State.reset

/-- Every step keeps the invariant of the block: the line at rest outside marks, the phases, the timer never late, the pulse list a
frame of 26 pairs, the history consistent with the level (R10 to R31, R118). -/
def Obligations.StepKeepsBlockInvariant : Prop :=
  ∀ s t : State, BlockInv s → step s = .next t → BlockInv t

/-- R20: the reset value and the transitions of `PHASE`, with the condition of each, and no others; a step that leaves `PHASE` as it
is has its condition too. HALT is left by reset only. The control positions that tell them apart are the model's (log 10). -/
def Obligations.PhaseTransitionsOnly : Prop :=
  State.reset.phase = .reset
  ∧ (∀ s t : State, BlockInv s → s.phase = .halt → step s = .next t → s.env.resetIn = true)
  ∧ ∀ s t : State, BlockInv s → Running s → step s = .next t →
    (s.phase = .reset → t.phase = .init)
    ∧ (s.phase = .init →
        (t.phase = .init ∧ (s.ctl = .initLevel ∨ (s.ctl = .initArm ∧ s.env.armOk = true)))
        ∨ (t.phase = .wait ∧ s.ctl = .initStatus ∧ s.armed = true)
        ∨ (t.phase = .halt ∧ s.ctl = .initArm ∧ s.env.armOk = false))
    ∧ (s.phase = .wait →
        (t.phase = .wait ∧ (s.ctl = .wait ∨ (s.ctl = .poll ∧ s.due = false)))
        ∨ (t.phase = .service ∧ s.ctl = .poll ∧ s.due = true))
    ∧ (s.phase = .service →
        (t.phase = .service ∧ (s.ctl = .sample ∨ (s.ctl = .gate ∧ t.ret = true ∧ exec .gate s = .next { s with
          idleCnt := t.idleCnt, ret := true })))
        ∨ (t.phase = .tx ∧ s.ctl = .encode ∧ s.ret = true)
        ∨ (t.phase = .wait ∧ s.ctl = .gate ∧ t.ret = false ∧ exec .gate s = .next { s with
          idleCnt := t.idleCnt, ret := false }))
    ∧ (s.phase = .tx →
        (t.phase = .tx ∧ (s.ctl = .mark ∨ (s.ctl = .space ∧ s.slot < 25)))
        ∨ (t.phase = .wait ∧ s.ctl = .space ∧ s.slot = 25 ∧ t.slot = 26))
    ∧ s.phase ≠ .halt

/-- R141: a running block with a well-formed parameter set always has a next state, and only a halted block answers a fault. That
the fault of INIT is answered at the halted block's missing step is the model's reading (log 13). -/
def Obligations.RunningBlockNeverStuck : Prop :=
  (∀ s : State, BlockInv s → Running s → s.params.wf = true → ∃ t, step s = .next t)
  ∧ ∀ (s : State) (r : Fault), step s = .fault r → s.halted = true

/-- R118: whenever no mark is in progress the envelope and the output line are 0. -/
def Obligations.LineAtRestOutsideMarks : Prop :=
  ∀ s : State, BlockInv s → s.ctl ≠ .space → s.carLevel = 0 ∧ envelopeAt s s.now = false ∧ irOutAt s s.now = false

/-- R130, R133: the machine's 52 steps from TXFRAME's start are exactly TXFRAME, then WAIT, with the point between
two operations at the end (R48). -/
def Obligations.TxframeRunsAsMarkSpaceSteps : Prop :=
  ∀ s : State, Running s → s.ctl = .mark → s.phase = .tx → s.slot = 0 → s.plist.length = 26 →
    ∃ t, exec .txframe s = .next t
      ∧ Host.Core.run Sys2Proof.core 52 s = .next (settleTick { t with phase := .wait, ctl := .wait })

/-- R129, R132: the machine's steps from a POLL that finds `DUE = 1` are exactly SERVICE: 56 of them with a frame, 3 without;
at the end the point between two operations (R48). -/
def Obligations.ServiceRunsAsItsSteps : Prop :=
  ∀ s : State, Running s → s.ctl = .poll → s.due = true →
    ∃ t, exec .service { s with due := false, ret := true } = .next t
      ∧ Host.Core.run Sys2Proof.core (if t.ret then 56 else 3) s = .next (settleTick t)

/-- R125, R168: the machine's steps from the release of reset are exactly INIT: four with the timer armed, at the end
the point between two operations (R48), three into HALT. -/
def Obligations.InitRunsAsItsSteps : Prop :=
  ∀ s : State, Running s → s.ctl = .boot → s.params.wf = true →
    ∃ t, exec .init s = .next t
      ∧ (s.env.armOk = true → Host.Core.run Sys2Proof.core 4 s = .next (settleTick t))
      ∧ (s.env.armOk = false → Host.Core.run Sys2Proof.core 3 s = .next { t with ctl := .initArm })

/-! ## Whole-machine rules -/

/-- R14, R15: the Timing Table, the Channel Map and every other parameter are written by no operation and by no step, reset
included. -/
def Obligations.ParametersNeverMutated : Prop :=
  (∀ (i : Instr) (s t : State), exec i s = .next t → t.params = s.params)
  ∧ ∀ s t : State, step s = .next t → t.params = s.params

/-- Each element is written by its owners only (R11 to R13, R16 to R23, R25, R26, R31), `ARMED` is never cleared (R86), and only a
TICK sets `DUE`. The wire items are counted among the writers of `CAR_LEVEL`, `SEG`, `TRACE` and `NOW` and not among those of `SLOT`,
`TXW`, `PLIST` and `PHASE` by the model's reading (log 14). `NEXT_FIRE` and `DUE` also move in the waits that host a TICK (log 11),
and then `TICKS` records it. -/
def Obligations.ElementsWrittenByOwnersOnly : Prop :=
  ∀ (i : Instr) (s t : State), exec i s = .next t →
    (t.idleCnt ≠ s.idleCnt → i = .gate ∨ i = .service)
    ∧ (t.carLevel ≠ s.carLevel ∨ t.trace ≠ s.trace → emits i = true ∨ i = .init ∨ ∃ v, i = .setlvl v)
    ∧ (t.seg ≠ s.seg → emits i = true)
    ∧ (t.snap ≠ s.snap → i = .sample ∨ i = .service)
    ∧ (t.txw ≠ s.txw ∨ t.plist ≠ s.plist → i = .encode ∨ i = .service)
    ∧ (t.slot ≠ s.slot → i = .txframe ∨ i = .service)
    ∧ (t.phase ≠ s.phase → i = .init ∨ i = .wait ∨ i = .service ∨ i = .txframe ∨ i = .halt)
    ∧ (t.carWrap ≠ s.carWrap ∨ t.carOn ≠ s.carOn → i = .carcfg ∨ i = .init)
    ∧ (t.armed ≠ s.armed → i = .arm ∨ i = .init)
    ∧ (t.nextFire ≠ s.nextFire → i = .arm ∨ i = .init ∨ t.ticks ≠ s.ticks)
    ∧ (t.ticks ≠ s.ticks → i = .tick ∨ i = .wait ∨ i = .status ∨ i = .init ∨ emits i = true)
    ∧ (t.now ≠ s.now → i = .wait ∨ i = .status ∨ i = .init ∨ emits i = true)
    ∧ (t.halted ≠ s.halted → i = .halt ∨ i = .init)
    ∧ (t.statusOut ≠ s.statusOut → i = .status ∨ i = .init)
    ∧ (s.due = true → t.due = false → i = .poll)
    ∧ (s.due = false → t.due = true → t.ticks ≠ s.ticks)
    ∧ (s.armed = true → t.armed = true)
    ∧ t.carPhi = s.carPhi ∧ t.params = s.params

/-- R51: a frame in flight does not depend on the input lines: with any other stimulus TXFRAME does the same. -/
def Obligations.FrameIgnoresInputs : Prop :=
  ∀ (s : State) (inputs : List (Nat × Nat)),
    ∃ t, exec .txframe s = .next t
      ∧ exec .txframe { s with env := { s.env with inputs := inputs } }
          = .next { t with env := { t.env with inputs := inputs } }

/-- R135, R172: without overrun (`LAT < T_GAP` for a service that transmits, `LAT < T_FRAME` for one that suppresses) a service that
begins at its TICK ends strictly before the next one: no TICK fires in it and none is left pending. -/
def Obligations.NoOverrunServiceMeetsNextTick : Prop :=
  ∀ s t : State, s.params.wf = true → s.armed = true → s.nextFire = s.now + s.params.tFrame → s.due = false →
    exec .service s = .next t →
    (t.ret = true → (drawLatency s).1 < s.params.tGap) →
    (t.ret = false → (drawLatency s).1 < s.params.tFrame) →
    t.now < t.nextFire ∧ t.nextFire = s.nextFire ∧ t.ticks = s.ticks ∧ t.due = false
end

