-- ==== Sys2Proof/Laws/Frame.lean ====
section
/-! SUPPORT. What the frame format's operations and the histories can do, said once each: the bits of a frame word, the symbols of
bits, the value an event log holds at a time. -/

namespace Sys2Proof

/-! ### The frame word (spec/30_encoding.md R64, R65) -/

/-- Bits 11 to 0 of a frame word are the inverted data bits. -/
theorem frameWord_check_bit (v : Snapshot) (i : Nat) (h : i < 12) : (frameWord v).getLsbD i = !v.getLsbD i := by
  change ((0#1 ++ v) ++ checkField v : BitVec (1 + 12 + 12)).getLsbD i = _
  rw [BitVec.getLsbD_append]
  simp [checkField, h]

/-- Bits 23 to 12 of a frame word are the data bits. -/
theorem frameWord_data_bit (v : Snapshot) (i : Nat) (h : i < 12) : (frameWord v).getLsbD (12 + i) = v.getLsbD i := by
  change ((0#1 ++ v) ++ checkField v : BitVec (1 + 12 + 12)).getLsbD (12 + i) = _
  rw [BitVec.getLsbD_append, BitVec.getLsbD_append]
  simp [h]

/-- Bit 24 of a frame word, the id bit, is 0. -/
theorem frameWord_id_bit (v : Snapshot) : (frameWord v).getLsbD 24 = false := by
  change ((0#1 ++ v) ++ checkField v : BitVec (1 + 12 + 12)).getLsbD 24 = _
  rw [BitVec.getLsbD_append, BitVec.getLsbD_append]
  simp

/-! ### Symbols of bits (R61, R65) -/

/-- The bit slots' symbols are the symbols of the word's bits, bit 24 first. -/
theorem bitSyms_eq_map (w : FrameWord) : bitSyms w = ((List.range 25).map fun i => w.getLsbD (24 - i)).map symOf := by
  simp [bitSyms, List.map_map, Function.comp_def]

/-- Reading the symbols of bits gives the number the bits are, most significant first. -/
theorem readBits_symOf (bits : List Bool) (acc : Nat) :
    readBits acc (bits.map symOf) = .ok (bits.foldl (fun (a : Nat) (b : Bool) => 2 * a + b.toNat) acc) := by
  induction bits generalizing acc with
  | nil => rfl
  | cons b bits ih => cases b <;> simp [symOf, readBits, ih]

/-- A run of bit slots lasts `T_BIT` per slot, whatever its bits are (spec/00_scope.md R5 (a)). -/
theorem pulseTime_bits (p : Params) (h : p.bitsOk = true) (bits : List Bool) :
    Machine.pulseTime ((bits.map symOf).map p.dur) = bits.length * p.tBit := by
  have h : p.tZeroMark + p.tZeroSpace = p.tOneMark + p.tOneSpace := by
    simp only [Params.bitsOk, Bool.and_eq_true, decide_eq_true_eq] at h
    exact h.1.1
  induction bits with
  | nil => simp [Machine.pulseTime]
  | cons b bits ih =>
    simp only [Machine.pulseTime, List.map_cons, List.sum_cons, List.length_cons, Nat.add_mul, Nat.one_mul] at ih ⊢
    rw [ih]
    cases b <;> simp [symOf, Params.dur, Params.tBit] <;> omega

namespace Machine

/-! ### Histories (spec/10_state.md R26) -/

/-- One more event decides the value from its time on and none before. -/
theorem lastAt_append {α : Type} (d : α) (log : List (Nat × α)) (e : Nat × α) (t : Nat) :
    lastAt d (log ++ [e]) t = if e.1 ≤ t then e.2 else lastAt d log t := by
  simp [lastAt, List.foldl_append]

/-- Later events do not change the value at an earlier time. -/
theorem lastAt_later {α : Type} (d : α) (log more : List (Nat × α)) (t : Nat) (h : ∀ e ∈ more, t < e.1) :
    lastAt d (log ++ more) t = lastAt d log t := by
  induction more using List.reverseRecOn with
  | nil => simp
  | append_singleton more e ih =>
    have := h e (by simp)
    rw [← List.append_assoc, lastAt_append, if_neg (by omega)]
    exact ih fun e he => h e (by simp [he])

/-- The events of a run of pulses begin at its start. -/
theorem pulseEvents_from (on t0 : Nat) (ps : List Pulse) : ∀ e ∈ pulseEvents on t0 ps, t0 ≤ e.1 := by
  induction ps generalizing t0 with
  | nil => simp [pulseEvents]
  | cons p ps ih =>
    intro e he
    simp only [pulseEvents, List.mem_cons] at he
    rcases he with rfl | rfl | he
    · exact Nat.le_refl _
    · exact Nat.le_add_right _ _
    · have := ih _ e he
      omega

/-- The events of two runs of pulses, one after the other. -/
theorem pulseEvents_append (on t0 : Nat) (ps qs : List Pulse) :
    pulseEvents on t0 (ps ++ qs) = pulseEvents on t0 ps ++ pulseEvents on (t0 + pulseTime ps) qs := by
  induction ps generalizing t0 with
  | nil => simp [pulseEvents, pulseTime]
  | cons p ps ih =>
    simp only [List.cons_append, pulseEvents, ih, pulseTime, List.map_cons, List.sum_cons, List.cons.injEq, true_and]
    congr 2
    omega

end Machine

end Sys2Proof
end

