-- ==== Sys2Proof/Laws/PerInstr.lean ====
section
/-! SUPPORT. A family of statements about every instruction as syntax: an item's run of symbols is not empty and ends by slot 25
(spec/30_encoding.md R60); an operation has no run (R72). -/

namespace Sys2Proof.Laws

open Sys2Proof

/-- The run of an item lies in the 26 slots of a frame. -/
def RunFits.Statement (i : Instr) : Prop :=
  ∀ (slot : Nat) (syms : List SlotSym), encode i = some (slot, syms) → syms ≠ [] ∧ slot + syms.length ≤ 26

/-- An instruction without an encoding has no run (R72). -/
theorem runFits_of_none {i : Instr} (h : encode i = none) : RunFits.Statement i := fun slot syms h' => by
  rw [h] at h'; cases h'

/-- An instruction whose run is known. -/
theorem runFits_of_some {i : Instr} {k : Nat} {run : List SlotSym} (h : encode i = some (k, run)) (hr : run ≠ [])
    (hk : k + run.length ≤ 26) : RunFits.Statement i := fun slot syms h' => by
  rw [h] at h'; cases h'; exact ⟨hr, hk⟩

/-- A frame word is 25 symbols (R65). -/
theorem bitSyms_length (w : FrameWord) : (bitSyms w).length = 25 := by simp [bitSyms]

/-- A frame is 26 symbols (R60). -/
theorem frameSyms_length (v : Snapshot) : (frameSyms v).length = 26 := by simp [frameSyms, bitSyms_length]

theorem RunFits.frame (v : Snapshot) : RunFits.Statement (.frame v) := runFits_of_some rfl (by simp [frameSyms]) (by simp [frameSyms_length])

theorem RunFits.txw (v : Snapshot) : RunFits.Statement (.txw v) := 
  runFits_of_some rfl (by rw [← List.length_pos_iff_ne_nil, bitSyms_length]; decide) (by simp [bitSyms_length])

theorem RunFits.hdr : RunFits.Statement .hdr := runFits_of_some rfl (by decide) (by decide)

theorem RunFits.zero : RunFits.Statement .zero := runFits_of_some rfl (by decide) (by decide)

theorem RunFits.one : RunFits.Statement .one := runFits_of_some rfl (by decide) (by decide)

theorem RunFits.id : RunFits.Statement .id := runFits_of_some rfl (by decide) (by decide)

theorem RunFits.arm : RunFits.Statement .arm := runFits_of_none rfl

theorem RunFits.tick : RunFits.Statement .tick := runFits_of_none rfl

theorem RunFits.sample : RunFits.Statement .sample := runFits_of_none rfl

theorem RunFits.gate : RunFits.Statement .gate := runFits_of_none rfl

theorem RunFits.encode : RunFits.Statement .encode := runFits_of_none rfl

theorem RunFits.carcfg : RunFits.Statement .carcfg := runFits_of_none rfl

theorem RunFits.setlvl (v : Level) : RunFits.Statement (.setlvl v) := runFits_of_none rfl

theorem RunFits.mark (d : Nat) : RunFits.Statement (.mark d) := runFits_of_none rfl

theorem RunFits.space (d : Nat) : RunFits.Statement (.space d) := runFits_of_none rfl

theorem RunFits.pulse (m sp : Nat) : RunFits.Statement (.pulse m sp) := runFits_of_none rfl

theorem RunFits.init : RunFits.Statement .init := runFits_of_none rfl

theorem RunFits.status : RunFits.Statement .status := runFits_of_none rfl

theorem RunFits.wait : RunFits.Statement .wait := runFits_of_none rfl

theorem RunFits.poll : RunFits.Statement .poll := runFits_of_none rfl

theorem RunFits.service : RunFits.Statement .service := runFits_of_none rfl

theorem RunFits.txframe : RunFits.Statement .txframe := runFits_of_none rfl

theorem RunFits.halt : RunFits.Statement .halt := runFits_of_none rfl

end Sys2Proof.Laws
end

