-- ==== Sys2Proof/Laws/State.lean ====
section
/-! SUPPORT. One lemma per field per update of the state, each true by rfl: no later proof unfolds a record update. -/

namespace Sys2Proof.Machine

variable (s : State)

/-! ### setLevel -/

@[simp] theorem setLevel_due (v : Nat) : (setLevel v s).due = s.due := rfl
@[simp] theorem setLevel_idleCnt (v : Nat) : (setLevel v s).idleCnt = s.idleCnt := rfl
@[simp] theorem setLevel_carLevel (v : Nat) : (setLevel v s).carLevel = v := rfl
@[simp] theorem setLevel_carWrap (v : Nat) : (setLevel v s).carWrap = s.carWrap := rfl
@[simp] theorem setLevel_carOn (v : Nat) : (setLevel v s).carOn = s.carOn := rfl
@[simp] theorem setLevel_snap (v : Nat) : (setLevel v s).snap = s.snap := rfl
@[simp] theorem setLevel_txw (v : Nat) : (setLevel v s).txw = s.txw := rfl
@[simp] theorem setLevel_plist (v : Nat) : (setLevel v s).plist = s.plist := rfl
@[simp] theorem setLevel_slot (v : Nat) : (setLevel v s).slot = s.slot := rfl
@[simp] theorem setLevel_seg (v : Nat) : (setLevel v s).seg = s.seg := rfl
@[simp] theorem setLevel_phase (v : Nat) : (setLevel v s).phase = s.phase := rfl
@[simp] theorem setLevel_armed (v : Nat) : (setLevel v s).armed = s.armed := rfl
@[simp] theorem setLevel_nextFire (v : Nat) : (setLevel v s).nextFire = s.nextFire := rfl
@[simp] theorem setLevel_now (v : Nat) : (setLevel v s).now = s.now := rfl
@[simp] theorem setLevel_halted (v : Nat) : (setLevel v s).halted = s.halted := rfl
@[simp] theorem setLevel_statusOut (v : Nat) : (setLevel v s).statusOut = s.statusOut := rfl
@[simp] theorem setLevel_carPhi (v : Nat) : (setLevel v s).carPhi = s.carPhi := rfl
@[simp] theorem setLevel_trace (v : Nat) : (setLevel v s).trace = s.trace ++ [(s.now, v)] := rfl
@[simp] theorem setLevel_ticks (v : Nat) : (setLevel v s).ticks = s.ticks := rfl
@[simp] theorem setLevel_statusLog (v : Nat) : (setLevel v s).statusLog = s.statusLog := rfl
@[simp] theorem setLevel_ret (v : Nat) : (setLevel v s).ret = s.ret := rfl
@[simp] theorem setLevel_ctl (v : Nat) : (setLevel v s).ctl = s.ctl := rfl
@[simp] theorem setLevel_params (v : Nat) : (setLevel v s).params = s.params := rfl
@[simp] theorem setLevel_env (v : Nat) : (setLevel v s).env = s.env := rfl
@[simp] theorem setLevel_epoch (v : Nat) : (setLevel v s).epoch = s.epoch := rfl
@[simp] theorem setLevel_drawIx (v : Nat) : (setLevel v s).drawIx = s.drawIx := rfl
@[simp] theorem setLevel_port (v : Nat) : (setLevel v s).port = s.port := rfl

/-! ### tickFire -/

@[simp] theorem tickFire_due : (tickFire s).due = true := rfl
@[simp] theorem tickFire_idleCnt : (tickFire s).idleCnt = s.idleCnt := rfl
@[simp] theorem tickFire_carLevel : (tickFire s).carLevel = s.carLevel := rfl
@[simp] theorem tickFire_carWrap : (tickFire s).carWrap = s.carWrap := rfl
@[simp] theorem tickFire_carOn : (tickFire s).carOn = s.carOn := rfl
@[simp] theorem tickFire_snap : (tickFire s).snap = s.snap := rfl
@[simp] theorem tickFire_txw : (tickFire s).txw = s.txw := rfl
@[simp] theorem tickFire_plist : (tickFire s).plist = s.plist := rfl
@[simp] theorem tickFire_slot : (tickFire s).slot = s.slot := rfl
@[simp] theorem tickFire_seg : (tickFire s).seg = s.seg := rfl
@[simp] theorem tickFire_phase : (tickFire s).phase = s.phase := rfl
@[simp] theorem tickFire_armed : (tickFire s).armed = s.armed := rfl
@[simp] theorem tickFire_nextFire : (tickFire s).nextFire = s.nextFire + s.params.tFrame := rfl
@[simp] theorem tickFire_now : (tickFire s).now = s.now := rfl
@[simp] theorem tickFire_halted : (tickFire s).halted = s.halted := rfl
@[simp] theorem tickFire_statusOut : (tickFire s).statusOut = s.statusOut := rfl
@[simp] theorem tickFire_carPhi : (tickFire s).carPhi = s.carPhi := rfl
@[simp] theorem tickFire_trace : (tickFire s).trace = s.trace := rfl
@[simp] theorem tickFire_ticks : (tickFire s).ticks = s.ticks ++ [s.now] := rfl
@[simp] theorem tickFire_statusLog : (tickFire s).statusLog = s.statusLog := rfl
@[simp] theorem tickFire_ret : (tickFire s).ret = s.ret := rfl
@[simp] theorem tickFire_ctl : (tickFire s).ctl = if s.phase = .wait then .poll else s.ctl := rfl
@[simp] theorem tickFire_params : (tickFire s).params = s.params := rfl
@[simp] theorem tickFire_env : (tickFire s).env = s.env := rfl
@[simp] theorem tickFire_epoch : (tickFire s).epoch = s.epoch := rfl
@[simp] theorem tickFire_drawIx : (tickFire s).drawIx = s.drawIx := rfl
@[simp] theorem tickFire_port : (tickFire s).port = s.port := rfl

/-! ### enterHalt -/

@[simp] theorem enterHalt_due : (enterHalt s).due = s.due := rfl
@[simp] theorem enterHalt_idleCnt : (enterHalt s).idleCnt = s.idleCnt := rfl
@[simp] theorem enterHalt_carLevel : (enterHalt s).carLevel = s.carLevel := rfl
@[simp] theorem enterHalt_carWrap : (enterHalt s).carWrap = s.carWrap := rfl
@[simp] theorem enterHalt_carOn : (enterHalt s).carOn = s.carOn := rfl
@[simp] theorem enterHalt_snap : (enterHalt s).snap = s.snap := rfl
@[simp] theorem enterHalt_txw : (enterHalt s).txw = s.txw := rfl
@[simp] theorem enterHalt_plist : (enterHalt s).plist = s.plist := rfl
@[simp] theorem enterHalt_slot : (enterHalt s).slot = s.slot := rfl
@[simp] theorem enterHalt_seg : (enterHalt s).seg = s.seg := rfl
@[simp] theorem enterHalt_phase : (enterHalt s).phase = .halt := rfl
@[simp] theorem enterHalt_armed : (enterHalt s).armed = s.armed := rfl
@[simp] theorem enterHalt_nextFire : (enterHalt s).nextFire = s.nextFire := rfl
@[simp] theorem enterHalt_now : (enterHalt s).now = s.now := rfl
@[simp] theorem enterHalt_halted : (enterHalt s).halted = true := rfl
@[simp] theorem enterHalt_statusOut : (enterHalt s).statusOut = s.statusOut := rfl
@[simp] theorem enterHalt_carPhi : (enterHalt s).carPhi = s.carPhi := rfl
@[simp] theorem enterHalt_trace : (enterHalt s).trace = s.trace := rfl
@[simp] theorem enterHalt_ticks : (enterHalt s).ticks = s.ticks := rfl
@[simp] theorem enterHalt_statusLog : (enterHalt s).statusLog = s.statusLog := rfl
@[simp] theorem enterHalt_ret : (enterHalt s).ret = s.ret := rfl
@[simp] theorem enterHalt_ctl : (enterHalt s).ctl = s.ctl := rfl
@[simp] theorem enterHalt_params : (enterHalt s).params = s.params := rfl
@[simp] theorem enterHalt_env : (enterHalt s).env = s.env := rfl
@[simp] theorem enterHalt_epoch : (enterHalt s).epoch = s.epoch := rfl
@[simp] theorem enterHalt_drawIx : (enterHalt s).drawIx = s.drawIx := rfl
@[simp] theorem enterHalt_port : (enterHalt s).port = s.port := rfl

/-! ### toWait -/

@[simp] theorem toWait_due : (toWait s).due = s.due := rfl
@[simp] theorem toWait_idleCnt : (toWait s).idleCnt = s.idleCnt := rfl
@[simp] theorem toWait_carLevel : (toWait s).carLevel = s.carLevel := rfl
@[simp] theorem toWait_carWrap : (toWait s).carWrap = s.carWrap := rfl
@[simp] theorem toWait_carOn : (toWait s).carOn = s.carOn := rfl
@[simp] theorem toWait_snap : (toWait s).snap = s.snap := rfl
@[simp] theorem toWait_txw : (toWait s).txw = s.txw := rfl
@[simp] theorem toWait_plist : (toWait s).plist = s.plist := rfl
@[simp] theorem toWait_slot : (toWait s).slot = s.slot := rfl
@[simp] theorem toWait_seg : (toWait s).seg = s.seg := rfl
@[simp] theorem toWait_phase : (toWait s).phase = .wait := rfl
@[simp] theorem toWait_armed : (toWait s).armed = s.armed := rfl
@[simp] theorem toWait_nextFire : (toWait s).nextFire = s.nextFire := rfl
@[simp] theorem toWait_now : (toWait s).now = s.now := rfl
@[simp] theorem toWait_halted : (toWait s).halted = s.halted := rfl
@[simp] theorem toWait_statusOut : (toWait s).statusOut = s.statusOut := rfl
@[simp] theorem toWait_carPhi : (toWait s).carPhi = s.carPhi := rfl
@[simp] theorem toWait_trace : (toWait s).trace = s.trace := rfl
@[simp] theorem toWait_ticks : (toWait s).ticks = s.ticks := rfl
@[simp] theorem toWait_statusLog : (toWait s).statusLog = s.statusLog := rfl
@[simp] theorem toWait_ret : (toWait s).ret = s.ret := rfl
@[simp] theorem toWait_ctl : (toWait s).ctl = .wait := rfl
@[simp] theorem toWait_params : (toWait s).params = s.params := rfl
@[simp] theorem toWait_env : (toWait s).env = s.env := rfl
@[simp] theorem toWait_epoch : (toWait s).epoch = s.epoch := rfl
@[simp] theorem toWait_drawIx : (toWait s).drawIx = s.drawIx := rfl
@[simp] theorem toWait_port : (toWait s).port = s.port := rfl

/-! ### startFrame -/

@[simp] theorem startFrame_due : (startFrame s).due = s.due := rfl
@[simp] theorem startFrame_idleCnt : (startFrame s).idleCnt = s.idleCnt := rfl
@[simp] theorem startFrame_carLevel : (startFrame s).carLevel = s.carLevel := rfl
@[simp] theorem startFrame_carWrap : (startFrame s).carWrap = s.carWrap := rfl
@[simp] theorem startFrame_carOn : (startFrame s).carOn = s.carOn := rfl
@[simp] theorem startFrame_snap : (startFrame s).snap = s.snap := rfl
@[simp] theorem startFrame_txw : (startFrame s).txw = s.txw := rfl
@[simp] theorem startFrame_plist : (startFrame s).plist = s.plist := rfl
@[simp] theorem startFrame_slot : (startFrame s).slot = 0 := rfl
@[simp] theorem startFrame_seg : (startFrame s).seg = s.seg := rfl
@[simp] theorem startFrame_phase : (startFrame s).phase = .tx := rfl
@[simp] theorem startFrame_armed : (startFrame s).armed = s.armed := rfl
@[simp] theorem startFrame_nextFire : (startFrame s).nextFire = s.nextFire := rfl
@[simp] theorem startFrame_now : (startFrame s).now = s.now := rfl
@[simp] theorem startFrame_halted : (startFrame s).halted = s.halted := rfl
@[simp] theorem startFrame_statusOut : (startFrame s).statusOut = s.statusOut := rfl
@[simp] theorem startFrame_carPhi : (startFrame s).carPhi = s.carPhi := rfl
@[simp] theorem startFrame_trace : (startFrame s).trace = s.trace := rfl
@[simp] theorem startFrame_ticks : (startFrame s).ticks = s.ticks := rfl
@[simp] theorem startFrame_statusLog : (startFrame s).statusLog = s.statusLog := rfl
@[simp] theorem startFrame_ret : (startFrame s).ret = s.ret := rfl
@[simp] theorem startFrame_ctl : (startFrame s).ctl = s.ctl := rfl
@[simp] theorem startFrame_params : (startFrame s).params = s.params := rfl
@[simp] theorem startFrame_env : (startFrame s).env = s.env := rfl
@[simp] theorem startFrame_epoch : (startFrame s).epoch = s.epoch := rfl
@[simp] theorem startFrame_drawIx : (startFrame s).drawIx = s.drawIx := rfl
@[simp] theorem startFrame_port : (startFrame s).port = s.port := rfl

/-! ### nextSlot -/

@[simp] theorem nextSlot_due : (nextSlot s).due = s.due := rfl
@[simp] theorem nextSlot_idleCnt : (nextSlot s).idleCnt = s.idleCnt := rfl
@[simp] theorem nextSlot_carLevel : (nextSlot s).carLevel = s.carLevel := rfl
@[simp] theorem nextSlot_carWrap : (nextSlot s).carWrap = s.carWrap := rfl
@[simp] theorem nextSlot_carOn : (nextSlot s).carOn = s.carOn := rfl
@[simp] theorem nextSlot_snap : (nextSlot s).snap = s.snap := rfl
@[simp] theorem nextSlot_txw : (nextSlot s).txw = s.txw := rfl
@[simp] theorem nextSlot_plist : (nextSlot s).plist = s.plist := rfl
@[simp] theorem nextSlot_slot : (nextSlot s).slot = s.slot + 1 := rfl
@[simp] theorem nextSlot_seg : (nextSlot s).seg = s.seg := rfl
@[simp] theorem nextSlot_phase : (nextSlot s).phase = s.phase := rfl
@[simp] theorem nextSlot_armed : (nextSlot s).armed = s.armed := rfl
@[simp] theorem nextSlot_nextFire : (nextSlot s).nextFire = s.nextFire := rfl
@[simp] theorem nextSlot_now : (nextSlot s).now = s.now := rfl
@[simp] theorem nextSlot_halted : (nextSlot s).halted = s.halted := rfl
@[simp] theorem nextSlot_statusOut : (nextSlot s).statusOut = s.statusOut := rfl
@[simp] theorem nextSlot_carPhi : (nextSlot s).carPhi = s.carPhi := rfl
@[simp] theorem nextSlot_trace : (nextSlot s).trace = s.trace := rfl
@[simp] theorem nextSlot_ticks : (nextSlot s).ticks = s.ticks := rfl
@[simp] theorem nextSlot_statusLog : (nextSlot s).statusLog = s.statusLog := rfl
@[simp] theorem nextSlot_ret : (nextSlot s).ret = s.ret := rfl
@[simp] theorem nextSlot_ctl : (nextSlot s).ctl = s.ctl := rfl
@[simp] theorem nextSlot_params : (nextSlot s).params = s.params := rfl
@[simp] theorem nextSlot_env : (nextSlot s).env = s.env := rfl
@[simp] theorem nextSlot_epoch : (nextSlot s).epoch = s.epoch := rfl
@[simp] theorem nextSlot_drawIx : (nextSlot s).drawIx = s.drawIx := rfl
@[simp] theorem nextSlot_port : (nextSlot s).port = s.port := rfl

/-! ### deriveCarrier -/

@[simp] theorem deriveCarrier_due : (deriveCarrier s).due = s.due := rfl
@[simp] theorem deriveCarrier_idleCnt : (deriveCarrier s).idleCnt = s.idleCnt := rfl
@[simp] theorem deriveCarrier_carLevel : (deriveCarrier s).carLevel = s.carLevel := rfl
@[simp] theorem deriveCarrier_carWrap : (deriveCarrier s).carWrap = s.params.carWrap := rfl
@[simp] theorem deriveCarrier_carOn : (deriveCarrier s).carOn = s.params.carOn := rfl
@[simp] theorem deriveCarrier_snap : (deriveCarrier s).snap = s.snap := rfl
@[simp] theorem deriveCarrier_txw : (deriveCarrier s).txw = s.txw := rfl
@[simp] theorem deriveCarrier_plist : (deriveCarrier s).plist = s.plist := rfl
@[simp] theorem deriveCarrier_slot : (deriveCarrier s).slot = s.slot := rfl
@[simp] theorem deriveCarrier_seg : (deriveCarrier s).seg = s.seg := rfl
@[simp] theorem deriveCarrier_phase : (deriveCarrier s).phase = s.phase := rfl
@[simp] theorem deriveCarrier_armed : (deriveCarrier s).armed = s.armed := rfl
@[simp] theorem deriveCarrier_nextFire : (deriveCarrier s).nextFire = s.nextFire := rfl
@[simp] theorem deriveCarrier_now : (deriveCarrier s).now = s.now := rfl
@[simp] theorem deriveCarrier_halted : (deriveCarrier s).halted = s.halted := rfl
@[simp] theorem deriveCarrier_statusOut : (deriveCarrier s).statusOut = s.statusOut := rfl
@[simp] theorem deriveCarrier_carPhi : (deriveCarrier s).carPhi = s.carPhi := rfl
@[simp] theorem deriveCarrier_trace : (deriveCarrier s).trace = s.trace := rfl
@[simp] theorem deriveCarrier_ticks : (deriveCarrier s).ticks = s.ticks := rfl
@[simp] theorem deriveCarrier_statusLog : (deriveCarrier s).statusLog = s.statusLog := rfl
@[simp] theorem deriveCarrier_ret : (deriveCarrier s).ret = s.ret := rfl
@[simp] theorem deriveCarrier_ctl : (deriveCarrier s).ctl = s.ctl := rfl
@[simp] theorem deriveCarrier_params : (deriveCarrier s).params = s.params := rfl
@[simp] theorem deriveCarrier_env : (deriveCarrier s).env = s.env := rfl
@[simp] theorem deriveCarrier_epoch : (deriveCarrier s).epoch = s.epoch := rfl
@[simp] theorem deriveCarrier_drawIx : (deriveCarrier s).drawIx = s.drawIx := rfl
@[simp] theorem deriveCarrier_port : (deriveCarrier s).port = s.port := rfl

/-! ### sampleInputs -/

@[simp] theorem sampleInputs_due : (sampleInputs s).due = s.due := rfl
@[simp] theorem sampleInputs_idleCnt : (sampleInputs s).idleCnt = s.idleCnt := rfl
@[simp] theorem sampleInputs_carLevel : (sampleInputs s).carLevel = s.carLevel := rfl
@[simp] theorem sampleInputs_carWrap : (sampleInputs s).carWrap = s.carWrap := rfl
@[simp] theorem sampleInputs_carOn : (sampleInputs s).carOn = s.carOn := rfl
@[simp] theorem sampleInputs_snap : (sampleInputs s).snap = snapshotOf s.params.channelMap (bankRead s) := rfl
@[simp] theorem sampleInputs_txw : (sampleInputs s).txw = s.txw := rfl
@[simp] theorem sampleInputs_plist : (sampleInputs s).plist = s.plist := rfl
@[simp] theorem sampleInputs_slot : (sampleInputs s).slot = s.slot := rfl
@[simp] theorem sampleInputs_seg : (sampleInputs s).seg = s.seg := rfl
@[simp] theorem sampleInputs_phase : (sampleInputs s).phase = s.phase := rfl
@[simp] theorem sampleInputs_armed : (sampleInputs s).armed = s.armed := rfl
@[simp] theorem sampleInputs_nextFire : (sampleInputs s).nextFire = s.nextFire := rfl
@[simp] theorem sampleInputs_now : (sampleInputs s).now = s.now := rfl
@[simp] theorem sampleInputs_halted : (sampleInputs s).halted = s.halted := rfl
@[simp] theorem sampleInputs_statusOut : (sampleInputs s).statusOut = s.statusOut := rfl
@[simp] theorem sampleInputs_carPhi : (sampleInputs s).carPhi = s.carPhi := rfl
@[simp] theorem sampleInputs_trace : (sampleInputs s).trace = s.trace := rfl
@[simp] theorem sampleInputs_ticks : (sampleInputs s).ticks = s.ticks := rfl
@[simp] theorem sampleInputs_statusLog : (sampleInputs s).statusLog = s.statusLog := rfl
@[simp] theorem sampleInputs_ret : (sampleInputs s).ret = s.ret := rfl
@[simp] theorem sampleInputs_ctl : (sampleInputs s).ctl = s.ctl := rfl
@[simp] theorem sampleInputs_params : (sampleInputs s).params = s.params := rfl
@[simp] theorem sampleInputs_env : (sampleInputs s).env = s.env := rfl
@[simp] theorem sampleInputs_epoch : (sampleInputs s).epoch = s.epoch := rfl
@[simp] theorem sampleInputs_drawIx : (sampleInputs s).drawIx = s.drawIx := rfl
@[simp] theorem sampleInputs_port : (sampleInputs s).port = s.port := rfl

/-! ### idleGate -/

@[simp] theorem idleGate_due : (idleGate s).due = s.due := rfl
@[simp] theorem idleGate_idleCnt : (idleGate s).idleCnt = idleCount s.snap s.idleCnt := rfl
@[simp] theorem idleGate_carLevel : (idleGate s).carLevel = s.carLevel := rfl
@[simp] theorem idleGate_carWrap : (idleGate s).carWrap = s.carWrap := rfl
@[simp] theorem idleGate_carOn : (idleGate s).carOn = s.carOn := rfl
@[simp] theorem idleGate_snap : (idleGate s).snap = s.snap := rfl
@[simp] theorem idleGate_txw : (idleGate s).txw = s.txw := rfl
@[simp] theorem idleGate_plist : (idleGate s).plist = s.plist := rfl
@[simp] theorem idleGate_slot : (idleGate s).slot = s.slot := rfl
@[simp] theorem idleGate_seg : (idleGate s).seg = s.seg := rfl
@[simp] theorem idleGate_phase : (idleGate s).phase = s.phase := rfl
@[simp] theorem idleGate_armed : (idleGate s).armed = s.armed := rfl
@[simp] theorem idleGate_nextFire : (idleGate s).nextFire = s.nextFire := rfl
@[simp] theorem idleGate_now : (idleGate s).now = s.now := rfl
@[simp] theorem idleGate_halted : (idleGate s).halted = s.halted := rfl
@[simp] theorem idleGate_statusOut : (idleGate s).statusOut = s.statusOut := rfl
@[simp] theorem idleGate_carPhi : (idleGate s).carPhi = s.carPhi := rfl
@[simp] theorem idleGate_trace : (idleGate s).trace = s.trace := rfl
@[simp] theorem idleGate_ticks : (idleGate s).ticks = s.ticks := rfl
@[simp] theorem idleGate_statusLog : (idleGate s).statusLog = s.statusLog := rfl
@[simp] theorem idleGate_ret : (idleGate s).ret = gateTransmit s.params s.snap s.idleCnt := rfl
@[simp] theorem idleGate_ctl : (idleGate s).ctl = s.ctl := rfl
@[simp] theorem idleGate_params : (idleGate s).params = s.params := rfl
@[simp] theorem idleGate_env : (idleGate s).env = s.env := rfl
@[simp] theorem idleGate_epoch : (idleGate s).epoch = s.epoch := rfl
@[simp] theorem idleGate_drawIx : (idleGate s).drawIx = s.drawIx := rfl
@[simp] theorem idleGate_port : (idleGate s).port = s.port := rfl

/-! ### encodeSnapshot -/

@[simp] theorem encodeSnapshot_due : (encodeSnapshot s).due = s.due := rfl
@[simp] theorem encodeSnapshot_idleCnt : (encodeSnapshot s).idleCnt = s.idleCnt := rfl
@[simp] theorem encodeSnapshot_carLevel : (encodeSnapshot s).carLevel = s.carLevel := rfl
@[simp] theorem encodeSnapshot_carWrap : (encodeSnapshot s).carWrap = s.carWrap := rfl
@[simp] theorem encodeSnapshot_carOn : (encodeSnapshot s).carOn = s.carOn := rfl
@[simp] theorem encodeSnapshot_snap : (encodeSnapshot s).snap = s.snap := rfl
@[simp] theorem encodeSnapshot_txw : (encodeSnapshot s).txw = frameWord s.snap := rfl
@[simp] theorem encodeSnapshot_plist : (encodeSnapshot s).plist = pulseList s.params s.snap := rfl
@[simp] theorem encodeSnapshot_slot : (encodeSnapshot s).slot = s.slot := rfl
@[simp] theorem encodeSnapshot_seg : (encodeSnapshot s).seg = s.seg := rfl
@[simp] theorem encodeSnapshot_phase : (encodeSnapshot s).phase = s.phase := rfl
@[simp] theorem encodeSnapshot_armed : (encodeSnapshot s).armed = s.armed := rfl
@[simp] theorem encodeSnapshot_nextFire : (encodeSnapshot s).nextFire = s.nextFire := rfl
@[simp] theorem encodeSnapshot_now : (encodeSnapshot s).now = s.now := rfl
@[simp] theorem encodeSnapshot_halted : (encodeSnapshot s).halted = s.halted := rfl
@[simp] theorem encodeSnapshot_statusOut : (encodeSnapshot s).statusOut = s.statusOut := rfl
@[simp] theorem encodeSnapshot_carPhi : (encodeSnapshot s).carPhi = s.carPhi := rfl
@[simp] theorem encodeSnapshot_trace : (encodeSnapshot s).trace = s.trace := rfl
@[simp] theorem encodeSnapshot_ticks : (encodeSnapshot s).ticks = s.ticks := rfl
@[simp] theorem encodeSnapshot_statusLog : (encodeSnapshot s).statusLog = s.statusLog := rfl
@[simp] theorem encodeSnapshot_ret : (encodeSnapshot s).ret = s.ret := rfl
@[simp] theorem encodeSnapshot_ctl : (encodeSnapshot s).ctl = s.ctl := rfl
@[simp] theorem encodeSnapshot_params : (encodeSnapshot s).params = s.params := rfl
@[simp] theorem encodeSnapshot_env : (encodeSnapshot s).env = s.env := rfl
@[simp] theorem encodeSnapshot_epoch : (encodeSnapshot s).epoch = s.epoch := rfl
@[simp] theorem encodeSnapshot_drawIx : (encodeSnapshot s).drawIx = s.drawIx := rfl
@[simp] theorem encodeSnapshot_port : (encodeSnapshot s).port = s.port := rfl

end Sys2Proof.Machine
end

