-- ==== Sys2Proof/Laws/Wait.lean ====
section
/-! SUPPORT. Time passing: what the timer's ticks, the settling of a coincident one and a busy wait can do, said once each. -/

namespace Sys2Proof.Machine

open Sys2Proof

/-! ### The order draw touches the draws only -/

theorem drawOrder_frame (s : State) :
    (drawOrder s).2 = { s with env := { s.env with orders := (drawOrder s).2.env.orders }, drawIx := (drawOrder s).2.drawIx } := by
  unfold drawOrder
  split <;> rfl

/-! ### Fields a busy wait never touches -/

@[simp] theorem fireTicks_idleCnt (fuel limit : Nat) (s : State) : (fireTicks fuel limit s).idleCnt = s.idleCnt := by
  induction fuel generalizing s with
  | zero => rfl
  | succ n ih => simp only [fireTicks]; split <;> simp [ih]

@[simp] theorem drawOrder_idleCnt (s : State) : (drawOrder s).2.idleCnt = s.idleCnt := by rw [drawOrder_frame]

@[simp] theorem settleTick_idleCnt (s : State) : (settleTick s).idleCnt = s.idleCnt := by
  unfold settleTick; split <;> (try split) <;> simp

@[simp] theorem waitFor_idleCnt (d : Nat) (s : State) : (waitFor d s).idleCnt = s.idleCnt := by simp [waitFor]

@[simp] theorem fireTicks_carLevel (fuel limit : Nat) (s : State) : (fireTicks fuel limit s).carLevel = s.carLevel := by
  induction fuel generalizing s with
  | zero => rfl
  | succ n ih => simp only [fireTicks]; split <;> simp [ih]

@[simp] theorem drawOrder_carLevel (s : State) : (drawOrder s).2.carLevel = s.carLevel := by rw [drawOrder_frame]

@[simp] theorem settleTick_carLevel (s : State) : (settleTick s).carLevel = s.carLevel := by
  unfold settleTick; split <;> (try split) <;> simp

@[simp] theorem waitFor_carLevel (d : Nat) (s : State) : (waitFor d s).carLevel = s.carLevel := by simp [waitFor]

@[simp] theorem fireTicks_carWrap (fuel limit : Nat) (s : State) : (fireTicks fuel limit s).carWrap = s.carWrap := by
  induction fuel generalizing s with
  | zero => rfl
  | succ n ih => simp only [fireTicks]; split <;> simp [ih]

@[simp] theorem drawOrder_carWrap (s : State) : (drawOrder s).2.carWrap = s.carWrap := by rw [drawOrder_frame]

@[simp] theorem settleTick_carWrap (s : State) : (settleTick s).carWrap = s.carWrap := by
  unfold settleTick; split <;> (try split) <;> simp

@[simp] theorem waitFor_carWrap (d : Nat) (s : State) : (waitFor d s).carWrap = s.carWrap := by simp [waitFor]

@[simp] theorem fireTicks_carOn (fuel limit : Nat) (s : State) : (fireTicks fuel limit s).carOn = s.carOn := by
  induction fuel generalizing s with
  | zero => rfl
  | succ n ih => simp only [fireTicks]; split <;> simp [ih]

@[simp] theorem drawOrder_carOn (s : State) : (drawOrder s).2.carOn = s.carOn := by rw [drawOrder_frame]

@[simp] theorem settleTick_carOn (s : State) : (settleTick s).carOn = s.carOn := by
  unfold settleTick; split <;> (try split) <;> simp

@[simp] theorem waitFor_carOn (d : Nat) (s : State) : (waitFor d s).carOn = s.carOn := by simp [waitFor]

@[simp] theorem fireTicks_snap (fuel limit : Nat) (s : State) : (fireTicks fuel limit s).snap = s.snap := by
  induction fuel generalizing s with
  | zero => rfl
  | succ n ih => simp only [fireTicks]; split <;> simp [ih]

@[simp] theorem drawOrder_snap (s : State) : (drawOrder s).2.snap = s.snap := by rw [drawOrder_frame]

@[simp] theorem settleTick_snap (s : State) : (settleTick s).snap = s.snap := by
  unfold settleTick; split <;> (try split) <;> simp

@[simp] theorem waitFor_snap (d : Nat) (s : State) : (waitFor d s).snap = s.snap := by simp [waitFor]

@[simp] theorem fireTicks_txw (fuel limit : Nat) (s : State) : (fireTicks fuel limit s).txw = s.txw := by
  induction fuel generalizing s with
  | zero => rfl
  | succ n ih => simp only [fireTicks]; split <;> simp [ih]

@[simp] theorem drawOrder_txw (s : State) : (drawOrder s).2.txw = s.txw := by rw [drawOrder_frame]

@[simp] theorem settleTick_txw (s : State) : (settleTick s).txw = s.txw := by
  unfold settleTick; split <;> (try split) <;> simp

@[simp] theorem waitFor_txw (d : Nat) (s : State) : (waitFor d s).txw = s.txw := by simp [waitFor]

@[simp] theorem fireTicks_plist (fuel limit : Nat) (s : State) : (fireTicks fuel limit s).plist = s.plist := by
  induction fuel generalizing s with
  | zero => rfl
  | succ n ih => simp only [fireTicks]; split <;> simp [ih]

@[simp] theorem drawOrder_plist (s : State) : (drawOrder s).2.plist = s.plist := by rw [drawOrder_frame]

@[simp] theorem settleTick_plist (s : State) : (settleTick s).plist = s.plist := by
  unfold settleTick; split <;> (try split) <;> simp

@[simp] theorem waitFor_plist (d : Nat) (s : State) : (waitFor d s).plist = s.plist := by simp [waitFor]

@[simp] theorem fireTicks_slot (fuel limit : Nat) (s : State) : (fireTicks fuel limit s).slot = s.slot := by
  induction fuel generalizing s with
  | zero => rfl
  | succ n ih => simp only [fireTicks]; split <;> simp [ih]

@[simp] theorem drawOrder_slot (s : State) : (drawOrder s).2.slot = s.slot := by rw [drawOrder_frame]

@[simp] theorem settleTick_slot (s : State) : (settleTick s).slot = s.slot := by
  unfold settleTick; split <;> (try split) <;> simp

@[simp] theorem waitFor_slot (d : Nat) (s : State) : (waitFor d s).slot = s.slot := by simp [waitFor]

@[simp] theorem fireTicks_seg (fuel limit : Nat) (s : State) : (fireTicks fuel limit s).seg = s.seg := by
  induction fuel generalizing s with
  | zero => rfl
  | succ n ih => simp only [fireTicks]; split <;> simp [ih]

@[simp] theorem drawOrder_seg (s : State) : (drawOrder s).2.seg = s.seg := by rw [drawOrder_frame]

@[simp] theorem settleTick_seg (s : State) : (settleTick s).seg = s.seg := by
  unfold settleTick; split <;> (try split) <;> simp

@[simp] theorem waitFor_seg (d : Nat) (s : State) : (waitFor d s).seg = s.seg := by simp [waitFor]

@[simp] theorem fireTicks_phase (fuel limit : Nat) (s : State) : (fireTicks fuel limit s).phase = s.phase := by
  induction fuel generalizing s with
  | zero => rfl
  | succ n ih => simp only [fireTicks]; split <;> simp [ih]

@[simp] theorem drawOrder_phase (s : State) : (drawOrder s).2.phase = s.phase := by rw [drawOrder_frame]

@[simp] theorem settleTick_phase (s : State) : (settleTick s).phase = s.phase := by
  unfold settleTick; split <;> (try split) <;> simp

@[simp] theorem waitFor_phase (d : Nat) (s : State) : (waitFor d s).phase = s.phase := by simp [waitFor]

@[simp] theorem fireTicks_armed (fuel limit : Nat) (s : State) : (fireTicks fuel limit s).armed = s.armed := by
  induction fuel generalizing s with
  | zero => rfl
  | succ n ih => simp only [fireTicks]; split <;> simp [ih]

@[simp] theorem drawOrder_armed (s : State) : (drawOrder s).2.armed = s.armed := by rw [drawOrder_frame]

@[simp] theorem settleTick_armed (s : State) : (settleTick s).armed = s.armed := by
  unfold settleTick; split <;> (try split) <;> simp

@[simp] theorem waitFor_armed (d : Nat) (s : State) : (waitFor d s).armed = s.armed := by simp [waitFor]

@[simp] theorem fireTicks_halted (fuel limit : Nat) (s : State) : (fireTicks fuel limit s).halted = s.halted := by
  induction fuel generalizing s with
  | zero => rfl
  | succ n ih => simp only [fireTicks]; split <;> simp [ih]

@[simp] theorem drawOrder_halted (s : State) : (drawOrder s).2.halted = s.halted := by rw [drawOrder_frame]

@[simp] theorem settleTick_halted (s : State) : (settleTick s).halted = s.halted := by
  unfold settleTick; split <;> (try split) <;> simp

@[simp] theorem waitFor_halted (d : Nat) (s : State) : (waitFor d s).halted = s.halted := by simp [waitFor]

@[simp] theorem fireTicks_statusOut (fuel limit : Nat) (s : State) : (fireTicks fuel limit s).statusOut = s.statusOut := by
  induction fuel generalizing s with
  | zero => rfl
  | succ n ih => simp only [fireTicks]; split <;> simp [ih]

@[simp] theorem drawOrder_statusOut (s : State) : (drawOrder s).2.statusOut = s.statusOut := by rw [drawOrder_frame]

@[simp] theorem settleTick_statusOut (s : State) : (settleTick s).statusOut = s.statusOut := by
  unfold settleTick; split <;> (try split) <;> simp

@[simp] theorem waitFor_statusOut (d : Nat) (s : State) : (waitFor d s).statusOut = s.statusOut := by simp [waitFor]

@[simp] theorem fireTicks_carPhi (fuel limit : Nat) (s : State) : (fireTicks fuel limit s).carPhi = s.carPhi := by
  induction fuel generalizing s with
  | zero => rfl
  | succ n ih => simp only [fireTicks]; split <;> simp [ih]

@[simp] theorem drawOrder_carPhi (s : State) : (drawOrder s).2.carPhi = s.carPhi := by rw [drawOrder_frame]

@[simp] theorem settleTick_carPhi (s : State) : (settleTick s).carPhi = s.carPhi := by
  unfold settleTick; split <;> (try split) <;> simp

@[simp] theorem waitFor_carPhi (d : Nat) (s : State) : (waitFor d s).carPhi = s.carPhi := by simp [waitFor]

@[simp] theorem fireTicks_trace (fuel limit : Nat) (s : State) : (fireTicks fuel limit s).trace = s.trace := by
  induction fuel generalizing s with
  | zero => rfl
  | succ n ih => simp only [fireTicks]; split <;> simp [ih]

@[simp] theorem drawOrder_trace (s : State) : (drawOrder s).2.trace = s.trace := by rw [drawOrder_frame]

@[simp] theorem settleTick_trace (s : State) : (settleTick s).trace = s.trace := by
  unfold settleTick; split <;> (try split) <;> simp

@[simp] theorem waitFor_trace (d : Nat) (s : State) : (waitFor d s).trace = s.trace := by simp [waitFor]

@[simp] theorem fireTicks_statusLog (fuel limit : Nat) (s : State) : (fireTicks fuel limit s).statusLog = s.statusLog := by
  induction fuel generalizing s with
  | zero => rfl
  | succ n ih => simp only [fireTicks]; split <;> simp [ih]

@[simp] theorem drawOrder_statusLog (s : State) : (drawOrder s).2.statusLog = s.statusLog := by rw [drawOrder_frame]

@[simp] theorem settleTick_statusLog (s : State) : (settleTick s).statusLog = s.statusLog := by
  unfold settleTick; split <;> (try split) <;> simp

@[simp] theorem waitFor_statusLog (d : Nat) (s : State) : (waitFor d s).statusLog = s.statusLog := by simp [waitFor]

@[simp] theorem fireTicks_ret (fuel limit : Nat) (s : State) : (fireTicks fuel limit s).ret = s.ret := by
  induction fuel generalizing s with
  | zero => rfl
  | succ n ih => simp only [fireTicks]; split <;> simp [ih]

@[simp] theorem drawOrder_ret (s : State) : (drawOrder s).2.ret = s.ret := by rw [drawOrder_frame]

@[simp] theorem settleTick_ret (s : State) : (settleTick s).ret = s.ret := by
  unfold settleTick; split <;> (try split) <;> simp

@[simp] theorem waitFor_ret (d : Nat) (s : State) : (waitFor d s).ret = s.ret := by simp [waitFor]

@[simp] theorem fireTicks_params (fuel limit : Nat) (s : State) : (fireTicks fuel limit s).params = s.params := by
  induction fuel generalizing s with
  | zero => rfl
  | succ n ih => simp only [fireTicks]; split <;> simp [ih]

@[simp] theorem drawOrder_params (s : State) : (drawOrder s).2.params = s.params := by rw [drawOrder_frame]

@[simp] theorem settleTick_params (s : State) : (settleTick s).params = s.params := by
  unfold settleTick; split <;> (try split) <;> simp

@[simp] theorem waitFor_params (d : Nat) (s : State) : (waitFor d s).params = s.params := by simp [waitFor]

@[simp] theorem fireTicks_epoch (fuel limit : Nat) (s : State) : (fireTicks fuel limit s).epoch = s.epoch := by
  induction fuel generalizing s with
  | zero => rfl
  | succ n ih => simp only [fireTicks]; split <;> simp [ih]

@[simp] theorem drawOrder_epoch (s : State) : (drawOrder s).2.epoch = s.epoch := by rw [drawOrder_frame]

@[simp] theorem settleTick_epoch (s : State) : (settleTick s).epoch = s.epoch := by
  unfold settleTick; split <;> (try split) <;> simp

@[simp] theorem waitFor_epoch (d : Nat) (s : State) : (waitFor d s).epoch = s.epoch := by simp [waitFor]

@[simp] theorem fireTicks_port (fuel limit : Nat) (s : State) : (fireTicks fuel limit s).port = s.port := by
  induction fuel generalizing s with
  | zero => rfl
  | succ n ih => simp only [fireTicks]; split <;> simp [ih]

@[simp] theorem drawOrder_port (s : State) : (drawOrder s).2.port = s.port := by rw [drawOrder_frame]

@[simp] theorem settleTick_port (s : State) : (settleTick s).port = s.port := by
  unfold settleTick; split <;> (try split) <;> simp

@[simp] theorem waitFor_port (d : Nat) (s : State) : (waitFor d s).port = s.port := by simp [waitFor]

@[simp] theorem drawOrder_now (s : State) : (drawOrder s).2.now = s.now := by rw [drawOrder_frame]

@[simp] theorem drawOrder_due (s : State) : (drawOrder s).2.due = s.due := by rw [drawOrder_frame]

@[simp] theorem drawOrder_nextFire (s : State) : (drawOrder s).2.nextFire = s.nextFire := by rw [drawOrder_frame]

@[simp] theorem drawOrder_ticks (s : State) : (drawOrder s).2.ticks = s.ticks := by rw [drawOrder_frame]

@[simp] theorem drawOrder_ctl (s : State) : (drawOrder s).2.ctl = s.ctl := by rw [drawOrder_frame]

@[simp] theorem fireTicks_env (fuel limit : Nat) (s : State) : (fireTicks fuel limit s).env = s.env := by
  induction fuel generalizing s with
  | zero => rfl
  | succ n ih => simp only [fireTicks]; split <;> simp [ih]

@[simp] theorem fireTicks_drawIx (fuel limit : Nat) (s : State) : (fireTicks fuel limit s).drawIx = s.drawIx := by
  induction fuel generalizing s with
  | zero => rfl
  | succ n ih => simp only [fireTicks]; split <;> simp [ih]

/-- A wait draws orders and nothing else from the environment. -/
theorem settleTick_env (s : State) : (settleTick s).env = { s.env with orders := (settleTick s).env.orders } := by
  unfold settleTick
  split
  · split <;> (simp; rw [drawOrder_frame])
  · rfl

theorem waitFor_env (d : Nat) (s : State) : (waitFor d s).env = { s.env with orders := (waitFor d s).env.orders } := by
  rw [waitFor, settleTick_env]
  simp

@[simp] theorem settleTick_now (s : State) : (settleTick s).now = s.now := by
  unfold settleTick; split <;> (try split) <;> simp

/-- A busy wait lasts exactly its duration, whatever fires in it (R115). -/
@[simp] theorem waitFor_now (d : Nat) (s : State) : (waitFor d s).now = s.now + d := by simp [waitFor]

/-! ### The wake of a sleeping main context -/

theorem fireTicks_ctl (fuel limit : Nat) (s : State) :
    (fireTicks fuel limit s).ctl = s.ctl ∨ (s.phase = .wait ∧ (fireTicks fuel limit s).ctl = .poll) := by
  induction fuel generalizing s with
  | zero => exact .inl rfl
  | succ n ih =>
    simp only [fireTicks]
    split
    · by_cases hp : s.phase = .wait
      · rcases ih (tickFire { s with now := s.nextFire }) with h | ⟨-, h⟩
        · exact .inr ⟨hp, by rw [h]; simp [hp]⟩
        · exact .inr ⟨hp, h⟩
      · rcases ih (tickFire { s with now := s.nextFire }) with h | ⟨h, -⟩
        · exact .inl (by rw [h]; simp [hp])
        · exact absurd h hp
    · exact .inl rfl

theorem settleTick_ctl (s : State) : (settleTick s).ctl = s.ctl ∨ (s.phase = .wait ∧ (settleTick s).ctl = .poll) := by
  unfold settleTick
  split
  · split
    · by_cases hp : s.phase = .wait <;> simp [hp]
    · simp
  · exact .inl rfl

theorem waitFor_ctl (d : Nat) (s : State) : (waitFor d s).ctl = s.ctl ∨ (s.phase = .wait ∧ (waitFor d s).ctl = .poll) := by
  have h1 := fireTicks_ctl d (s.now + d) s
  have h2 := settleTick_ctl { fireTicks d (s.now + d) s with now := s.now + d }
  rw [fireTicks_phase] at h2
  rcases h2 with h2 | h2
  · rw [waitFor, h2]; exact h1
  · exact .inr h2

/-- Outside WAIT the interrupt's return leaves the main context exactly where it was (spec/60_exceptions.md R146). -/
theorem waitFor_ctl_of_ne (d : Nat) (s : State) (h : s.phase ≠ .wait) : (waitFor d s).ctl = s.ctl := by
  rcases waitFor_ctl d s with h' | ⟨h', -⟩
  · exact h'
  · exact absurd h' h

/-- Everything but time, the timer, the draws and the wake is unchanged by a busy wait. -/
theorem waitFor_frame (d : Nat) (s : State) : WaitFrame s (waitFor d s) := by
  refine ⟨?_, waitFor_ctl d s⟩
  ext1 <;> simp
  exact waitFor_env d s

/-! ### The timer -/

/-- `n` nominal firings from `s.nextFire` on, recorded in `t`. -/
theorem range_map_shift (a b n : Nat) :
    a :: (List.range n).map (fun k => a + b + k * b) = (List.range (n + 1)).map fun k => a + k * b := by
  rw [List.range_succ_eq_map]
  simp only [List.map_cons, List.map_map, Nat.zero_mul, Nat.add_zero, List.cons.injEq, true_and]
  refine List.map_congr_left fun k _ => ?_
  simp only [Function.comp, Nat.succ_eq_add_one, Nat.add_mul, Nat.one_mul]
  omega

/-- The ticks fired before a limit: each at its nominal time, none missing if the fuel suffices. -/
theorem fireTicks_ran (fuel limit : Nat) (s : State) (hT : s.armed = true → 0 < s.params.tFrame)
    (hf : limit ≤ s.nextFire + fuel) :
    ∃ n : Nat,
      (fireTicks fuel limit s).ticks = s.ticks ++ (List.range n).map (fun k => s.nextFire + k * s.params.tFrame)
      ∧ (fireTicks fuel limit s).nextFire = s.nextFire + n * s.params.tFrame
      ∧ (fireTicks fuel limit s).due = (s.due || decide (0 < n))
      ∧ (s.armed = false → n = 0)
      ∧ (s.armed = true → limit ≤ (fireTicks fuel limit s).nextFire ∧ ∀ k < n, s.nextFire + k * s.params.tFrame < limit) := by
  induction fuel generalizing s with
  | zero => exact ⟨0, by simp [fireTicks], by simp [fireTicks], by simp [fireTicks], by simp, fun _ => by simpa [fireTicks] using hf⟩
  | succ m ih =>
    by_cases hc : (s.armed && decide (s.nextFire < limit)) = true
    · have ha : s.armed = true := by simp at hc; exact hc.1
      have hl : s.nextFire < limit := by simp at hc; exact hc.2
      have hpos := hT ha
      obtain ⟨n, h1, h2, h3, -, h5⟩ := ih (tickFire { s with now := s.nextFire }) (by simpa using hT)
        (by simp only [tickFire_nextFire]; omega)
      simp only [tickFire_ticks, tickFire_nextFire, tickFire_params, tickFire_due, tickFire_armed, Bool.true_or] at h1 h2 h3 h5
      have he : fireTicks (m + 1) limit s = fireTicks m limit (tickFire { s with now := s.nextFire }) := by
        simp only [fireTicks]; rw [if_pos hc]
      rw [he]
      refine ⟨n + 1, ?_, ?_, ?_, by simp [ha], fun _ => ⟨(h5 ha).1, ?_⟩⟩
      · rw [h1, List.append_assoc, ← range_map_shift]; rfl
      · rw [h2, Nat.add_mul, Nat.one_mul]; omega
      · rw [h3]; simp
      · intro k hk
        cases k with
        | zero => simpa using hl
        | succ j =>
          have := (h5 ha).2 j (by omega)
          rw [Nat.add_mul, Nat.one_mul]; omega
    · have he : fireTicks (m + 1) limit s = s := by simp only [fireTicks]; rw [if_neg hc]
      rw [he]
      refine ⟨0, by simp, by simp, by simp, by simp, fun ha => ⟨?_, by simp⟩⟩
      simp [ha] at hc; exact hc

/-- A TICK at the instant a wait ends has fired or is still to fire; nothing else happens (R144). -/
theorem settleTick_ran (s : State) :
    settleTick s = s ∨ (tickEnabled s = true ∧ (settleTick s).ticks = s.ticks ∧ (settleTick s).nextFire = s.nextFire
        ∧ (settleTick s).due = s.due)
      ∨ (tickEnabled s = true ∧ (settleTick s).ticks = s.ticks ++ [s.now]
        ∧ (settleTick s).nextFire = s.nextFire + s.params.tFrame ∧ (settleTick s).due = true) := by
  unfold settleTick
  split
  · rename_i h
    split
    · exact .inr (.inr ⟨h, by simp⟩)
    · exact .inr (.inl ⟨h, by simp⟩)
  · exact .inl rfl

/-- A busy wait is exactly its duration of the free-running timer (R82, R115, R144). -/
theorem waitFor_ran (d : Nat) (s : State) (h : s.Timely) : TimerRan s (waitFor d s) := by
  by_cases ha : s.armed = true
  · obtain ⟨hT, hn⟩ := h ha
    obtain ⟨n, h1, h2, h3, -, h5⟩ := fireTicks_ran d (s.now + d) s (fun _ => hT) (by omega)
    obtain ⟨h5, h6⟩ := h5 ha
    rcases settleTick_ran { fireTicks d (s.now + d) s with now := s.now + d } with h | ⟨-, k1, k2, k3⟩ | ⟨k0, k1, k2, k3⟩
    · refine ⟨n, ?_, ?_, ?_, by simp [ha], fun _ => ?_⟩
      · change (settleTick _).ticks = _; rw [h]; exact h1
      · change (settleTick _).nextFire = _; rw [h]; exact h2
      · change (settleTick _).due = _; rw [h]; exact h3
      · rw [waitFor_now]
        refine ⟨?_, fun k hk => Nat.le_of_lt (h6 k hk)⟩
        change _ ≤ (settleTick _).nextFire; rw [h]; exact h5
    · refine ⟨n, ?_, ?_, ?_, by simp [ha], fun _ => ?_⟩
      · change (settleTick _).ticks = _; rw [k1]; exact h1
      · change (settleTick _).nextFire = _; rw [k2]; exact h2
      · change (settleTick _).due = _; rw [k3]; exact h3
      · rw [waitFor_now]
        refine ⟨?_, fun k hk => Nat.le_of_lt (h6 k hk)⟩
        change _ ≤ (settleTick _).nextFire; rw [k2]; exact h5
    · simp only [tickEnabled, fireTicks_armed, ha, Bool.true_and, beq_iff_eq] at k0
      refine ⟨n + 1, ?_, ?_, ?_, by simp [ha], fun _ => ?_⟩
      · change (settleTick _).ticks = _
        rw [k1]; simp only [h1, List.range_succ, List.map_append, List.map_cons, List.map_nil, List.append_assoc]
        rw [k0, h2]
      · change (settleTick _).nextFire = _
        rw [k2]; simp only [h2, fireTicks_params, Nat.add_mul, Nat.one_mul]; omega
      · change (settleTick _).due = _
        rw [k3]; simp
      · rw [waitFor_now]
        refine ⟨?_, fun k hk => ?_⟩
        · change _ ≤ (settleTick _).nextFire; rw [k2]; simp only [fireTicks_params]; omega
        · rcases Nat.lt_succ_iff_lt_or_eq.mp hk with hk | rfl
          · exact Nat.le_of_lt (h6 k hk)
          · rw [← h2, ← k0]
  · have ha : s.armed = false := by simpa using ha
    have hf : fireTicks d (s.now + d) s = s := by cases d <;> simp [fireTicks, ha]
    have hs : waitFor d s = { s with now := s.now + d } := by
      simp [waitFor, hf, settleTick, tickEnabled, ha]
    rw [hs]
    exact ⟨0, by simp, by simp, by simp, by simp, by simp [ha]⟩

/-- All a busy wait can do: `d` microseconds pass, the timer runs, nothing else changes. -/
theorem waitFor_elapsed (d : Nat) (s : State) (h : s.Timely) : Elapsed d s (waitFor d s) :=
  ⟨waitFor_now d s, waitFor_ran d s h, waitFor_frame d s⟩

/-! ### Composition -/

/-- A timer that ran is on time. -/
theorem TimerRan.timely {s t : State} (h : TimerRan s t) (hs : s.Timely) (ha : t.armed = s.armed) (hp : t.params = s.params) :
    t.Timely := by
  intro hat
  rw [ha] at hat
  obtain ⟨n, -, -, -, -, h5⟩ := h
  exact ⟨by rw [hp]; exact (hs hat).1, (h5 hat).1⟩

/-- The timer's runs add up. -/
theorem TimerRan.trans {s t u : State} (h : TimerRan s t) (h' : TimerRan t u) (ha : t.armed = s.armed) (hp : t.params = s.params)
    (hn : t.now ≤ u.now) : TimerRan s u := by
  obtain ⟨n, a1, a2, a3, a4, a5⟩ := h
  obtain ⟨m, b1, b2, b3, b4, b5⟩ := h'
  rw [ha] at b4 b5
  rw [hp] at b1 b2 b5
  refine ⟨n + m, ?_, ?_, ?_, fun h => by rw [a4 h, b4 h], fun h => ⟨(b5 h).1, fun k hk => ?_⟩⟩
  · rw [b1, a1, List.append_assoc, a2, List.range_add, List.map_append, List.map_map]
    congr 2
    refine List.map_congr_left fun k _ => ?_
    simp only [Function.comp, Nat.add_mul]; omega
  · rw [b2, a2, Nat.add_mul]; omega
  · rw [b3, a3, Bool.or_assoc]; congr 1
    by_cases h1 : 0 < n <;> by_cases h2 : 0 < m <;> simp [h1, h2]
  · by_cases hkn : k < n
    · exact Nat.le_trans ((a5 h).2 k hkn) hn
    · have := (b5 h).2 (k - n) (by omega)
      rw [a2] at this
      have e : s.nextFire + n * s.params.tFrame + (k - n) * s.params.tFrame = s.nextFire + k * s.params.tFrame := by
        rw [Nat.add_assoc, ← Nat.add_mul]; congr 2; omega
      rw [e] at this; exact this

/-- Time passing, then more time passing. -/
theorem Elapsed.trans {d e : Nat} {s t u : State} (h : Elapsed d s t) (h' : Elapsed e t u) : Elapsed (d + e) s u := by
  obtain ⟨h1, h2, h3, h4⟩ := h
  obtain ⟨k1, k2, k3, k4⟩ := h'
  refine ⟨by omega, TimerRan.trans h2 k2 (by rw [h3]) (by rw [h3]) (by omega), by rw [k3, h3], ?_⟩
  have hp : t.phase = s.phase := by rw [h3]
  rcases k4 with k4 | ⟨k4, k5⟩
  · rcases h4 with h4 | ⟨h4, h5⟩
    · exact .inl (k4.trans h4)
    · exact .inr ⟨h4, k4.trans h5⟩
  · exact .inr ⟨hp ▸ k4, k5⟩

/-- Time passing leaves the timer on time. -/
theorem Elapsed.timely {d : Nat} {s t : State} (h : Elapsed d s t) (hs : s.Timely) : t.Timely := by
  have h3 := h.2.2.1
  exact h.2.1.timely hs (by rw [h3]) (by rw [h3])

/-! ### The point between two operations -/

/-- The point between two operations is a wait of no length. -/
theorem waitFor_zero (s : State) : waitFor 0 s = settleTick s := rfl

/-- All the point between two operations can do: a TICK due at this instant fires or is left over (R48, R144). -/
theorem settleTick_elapsed (s : State) (h : s.Timely) : Elapsed 0 s (settleTick s) := waitFor_elapsed 0 s h

/-- Where no TICK is due, nothing happens between two operations. -/
theorem settleTick_of_not_enabled (s : State) (h : tickEnabled s = false) : settleTick s = s := by simp [settleTick, h]

end Sys2Proof.Machine
end

