-- ==== Sys2Proof/Laws/Pulse.lean ====
section
/-! SUPPORT. What a mark, a space, a pulse, a run of pulses and the emission of a pulse list can do, said once each. -/

namespace Sys2Proof.Machine

open Sys2Proof

/-! ### Fields a pulse never touches -/

@[simp] theorem markFor_idleCnt (d : Nat) (s : State) : (markFor d s).idleCnt = s.idleCnt := by simp [markFor]

@[simp] theorem spaceFor_idleCnt (d : Nat) (s : State) : (spaceFor d s).idleCnt = s.idleCnt := by simp [spaceFor]

@[simp] theorem pulseFor_idleCnt (p : Pulse) (s : State) : (pulseFor p s).idleCnt = s.idleCnt := by simp [pulseFor]

@[simp] theorem emitPulses_idleCnt (ps : List Pulse) (s : State) : (emitPulses ps s).idleCnt = s.idleCnt := by
  induction ps generalizing s with
  | nil => rfl
  | cons p ps ih => exact (ih (pulseFor p s)).trans (pulseFor_idleCnt p s)

@[simp] theorem markFor_carWrap (d : Nat) (s : State) : (markFor d s).carWrap = s.carWrap := by simp [markFor]

@[simp] theorem spaceFor_carWrap (d : Nat) (s : State) : (spaceFor d s).carWrap = s.carWrap := by simp [spaceFor]

@[simp] theorem pulseFor_carWrap (p : Pulse) (s : State) : (pulseFor p s).carWrap = s.carWrap := by simp [pulseFor]

@[simp] theorem emitPulses_carWrap (ps : List Pulse) (s : State) : (emitPulses ps s).carWrap = s.carWrap := by
  induction ps generalizing s with
  | nil => rfl
  | cons p ps ih => exact (ih (pulseFor p s)).trans (pulseFor_carWrap p s)

@[simp] theorem markFor_carOn (d : Nat) (s : State) : (markFor d s).carOn = s.carOn := by simp [markFor]

@[simp] theorem spaceFor_carOn (d : Nat) (s : State) : (spaceFor d s).carOn = s.carOn := by simp [spaceFor]

@[simp] theorem pulseFor_carOn (p : Pulse) (s : State) : (pulseFor p s).carOn = s.carOn := by simp [pulseFor]

@[simp] theorem emitPulses_carOn (ps : List Pulse) (s : State) : (emitPulses ps s).carOn = s.carOn := by
  induction ps generalizing s with
  | nil => rfl
  | cons p ps ih => exact (ih (pulseFor p s)).trans (pulseFor_carOn p s)

@[simp] theorem markFor_snap (d : Nat) (s : State) : (markFor d s).snap = s.snap := by simp [markFor]

@[simp] theorem spaceFor_snap (d : Nat) (s : State) : (spaceFor d s).snap = s.snap := by simp [spaceFor]

@[simp] theorem pulseFor_snap (p : Pulse) (s : State) : (pulseFor p s).snap = s.snap := by simp [pulseFor]

@[simp] theorem emitPulses_snap (ps : List Pulse) (s : State) : (emitPulses ps s).snap = s.snap := by
  induction ps generalizing s with
  | nil => rfl
  | cons p ps ih => exact (ih (pulseFor p s)).trans (pulseFor_snap p s)

@[simp] theorem markFor_txw (d : Nat) (s : State) : (markFor d s).txw = s.txw := by simp [markFor]

@[simp] theorem spaceFor_txw (d : Nat) (s : State) : (spaceFor d s).txw = s.txw := by simp [spaceFor]

@[simp] theorem pulseFor_txw (p : Pulse) (s : State) : (pulseFor p s).txw = s.txw := by simp [pulseFor]

@[simp] theorem emitPulses_txw (ps : List Pulse) (s : State) : (emitPulses ps s).txw = s.txw := by
  induction ps generalizing s with
  | nil => rfl
  | cons p ps ih => exact (ih (pulseFor p s)).trans (pulseFor_txw p s)

@[simp] theorem markFor_plist (d : Nat) (s : State) : (markFor d s).plist = s.plist := by simp [markFor]

@[simp] theorem spaceFor_plist (d : Nat) (s : State) : (spaceFor d s).plist = s.plist := by simp [spaceFor]

@[simp] theorem pulseFor_plist (p : Pulse) (s : State) : (pulseFor p s).plist = s.plist := by simp [pulseFor]

@[simp] theorem emitPulses_plist (ps : List Pulse) (s : State) : (emitPulses ps s).plist = s.plist := by
  induction ps generalizing s with
  | nil => rfl
  | cons p ps ih => exact (ih (pulseFor p s)).trans (pulseFor_plist p s)

@[simp] theorem markFor_slot (d : Nat) (s : State) : (markFor d s).slot = s.slot := by simp [markFor]

@[simp] theorem spaceFor_slot (d : Nat) (s : State) : (spaceFor d s).slot = s.slot := by simp [spaceFor]

@[simp] theorem pulseFor_slot (p : Pulse) (s : State) : (pulseFor p s).slot = s.slot := by simp [pulseFor]

@[simp] theorem emitPulses_slot (ps : List Pulse) (s : State) : (emitPulses ps s).slot = s.slot := by
  induction ps generalizing s with
  | nil => rfl
  | cons p ps ih => exact (ih (pulseFor p s)).trans (pulseFor_slot p s)

@[simp] theorem markFor_phase (d : Nat) (s : State) : (markFor d s).phase = s.phase := by simp [markFor]

@[simp] theorem spaceFor_phase (d : Nat) (s : State) : (spaceFor d s).phase = s.phase := by simp [spaceFor]

@[simp] theorem pulseFor_phase (p : Pulse) (s : State) : (pulseFor p s).phase = s.phase := by simp [pulseFor]

@[simp] theorem emitPulses_phase (ps : List Pulse) (s : State) : (emitPulses ps s).phase = s.phase := by
  induction ps generalizing s with
  | nil => rfl
  | cons p ps ih => exact (ih (pulseFor p s)).trans (pulseFor_phase p s)

@[simp] theorem markFor_armed (d : Nat) (s : State) : (markFor d s).armed = s.armed := by simp [markFor]

@[simp] theorem spaceFor_armed (d : Nat) (s : State) : (spaceFor d s).armed = s.armed := by simp [spaceFor]

@[simp] theorem pulseFor_armed (p : Pulse) (s : State) : (pulseFor p s).armed = s.armed := by simp [pulseFor]

@[simp] theorem emitPulses_armed (ps : List Pulse) (s : State) : (emitPulses ps s).armed = s.armed := by
  induction ps generalizing s with
  | nil => rfl
  | cons p ps ih => exact (ih (pulseFor p s)).trans (pulseFor_armed p s)

@[simp] theorem markFor_halted (d : Nat) (s : State) : (markFor d s).halted = s.halted := by simp [markFor]

@[simp] theorem spaceFor_halted (d : Nat) (s : State) : (spaceFor d s).halted = s.halted := by simp [spaceFor]

@[simp] theorem pulseFor_halted (p : Pulse) (s : State) : (pulseFor p s).halted = s.halted := by simp [pulseFor]

@[simp] theorem emitPulses_halted (ps : List Pulse) (s : State) : (emitPulses ps s).halted = s.halted := by
  induction ps generalizing s with
  | nil => rfl
  | cons p ps ih => exact (ih (pulseFor p s)).trans (pulseFor_halted p s)

@[simp] theorem markFor_statusOut (d : Nat) (s : State) : (markFor d s).statusOut = s.statusOut := by simp [markFor]

@[simp] theorem spaceFor_statusOut (d : Nat) (s : State) : (spaceFor d s).statusOut = s.statusOut := by simp [spaceFor]

@[simp] theorem pulseFor_statusOut (p : Pulse) (s : State) : (pulseFor p s).statusOut = s.statusOut := by simp [pulseFor]

@[simp] theorem emitPulses_statusOut (ps : List Pulse) (s : State) : (emitPulses ps s).statusOut = s.statusOut := by
  induction ps generalizing s with
  | nil => rfl
  | cons p ps ih => exact (ih (pulseFor p s)).trans (pulseFor_statusOut p s)

@[simp] theorem markFor_carPhi (d : Nat) (s : State) : (markFor d s).carPhi = s.carPhi := by simp [markFor]

@[simp] theorem spaceFor_carPhi (d : Nat) (s : State) : (spaceFor d s).carPhi = s.carPhi := by simp [spaceFor]

@[simp] theorem pulseFor_carPhi (p : Pulse) (s : State) : (pulseFor p s).carPhi = s.carPhi := by simp [pulseFor]

@[simp] theorem emitPulses_carPhi (ps : List Pulse) (s : State) : (emitPulses ps s).carPhi = s.carPhi := by
  induction ps generalizing s with
  | nil => rfl
  | cons p ps ih => exact (ih (pulseFor p s)).trans (pulseFor_carPhi p s)

@[simp] theorem markFor_statusLog (d : Nat) (s : State) : (markFor d s).statusLog = s.statusLog := by simp [markFor]

@[simp] theorem spaceFor_statusLog (d : Nat) (s : State) : (spaceFor d s).statusLog = s.statusLog := by simp [spaceFor]

@[simp] theorem pulseFor_statusLog (p : Pulse) (s : State) : (pulseFor p s).statusLog = s.statusLog := by simp [pulseFor]

@[simp] theorem emitPulses_statusLog (ps : List Pulse) (s : State) : (emitPulses ps s).statusLog = s.statusLog := by
  induction ps generalizing s with
  | nil => rfl
  | cons p ps ih => exact (ih (pulseFor p s)).trans (pulseFor_statusLog p s)

@[simp] theorem markFor_ret (d : Nat) (s : State) : (markFor d s).ret = s.ret := by simp [markFor]

@[simp] theorem spaceFor_ret (d : Nat) (s : State) : (spaceFor d s).ret = s.ret := by simp [spaceFor]

@[simp] theorem pulseFor_ret (p : Pulse) (s : State) : (pulseFor p s).ret = s.ret := by simp [pulseFor]

@[simp] theorem emitPulses_ret (ps : List Pulse) (s : State) : (emitPulses ps s).ret = s.ret := by
  induction ps generalizing s with
  | nil => rfl
  | cons p ps ih => exact (ih (pulseFor p s)).trans (pulseFor_ret p s)

@[simp] theorem markFor_params (d : Nat) (s : State) : (markFor d s).params = s.params := by simp [markFor]

@[simp] theorem spaceFor_params (d : Nat) (s : State) : (spaceFor d s).params = s.params := by simp [spaceFor]

@[simp] theorem pulseFor_params (p : Pulse) (s : State) : (pulseFor p s).params = s.params := by simp [pulseFor]

@[simp] theorem emitPulses_params (ps : List Pulse) (s : State) : (emitPulses ps s).params = s.params := by
  induction ps generalizing s with
  | nil => rfl
  | cons p ps ih => exact (ih (pulseFor p s)).trans (pulseFor_params p s)

@[simp] theorem markFor_epoch (d : Nat) (s : State) : (markFor d s).epoch = s.epoch := by simp [markFor]

@[simp] theorem spaceFor_epoch (d : Nat) (s : State) : (spaceFor d s).epoch = s.epoch := by simp [spaceFor]

@[simp] theorem pulseFor_epoch (p : Pulse) (s : State) : (pulseFor p s).epoch = s.epoch := by simp [pulseFor]

@[simp] theorem emitPulses_epoch (ps : List Pulse) (s : State) : (emitPulses ps s).epoch = s.epoch := by
  induction ps generalizing s with
  | nil => rfl
  | cons p ps ih => exact (ih (pulseFor p s)).trans (pulseFor_epoch p s)

@[simp] theorem markFor_port (d : Nat) (s : State) : (markFor d s).port = s.port := by simp [markFor]

@[simp] theorem spaceFor_port (d : Nat) (s : State) : (spaceFor d s).port = s.port := by simp [spaceFor]

@[simp] theorem pulseFor_port (p : Pulse) (s : State) : (pulseFor p s).port = s.port := by simp [pulseFor]

@[simp] theorem emitPulses_port (ps : List Pulse) (s : State) : (emitPulses ps s).port = s.port := by
  induction ps generalizing s with
  | nil => rfl
  | cons p ps ih => exact (ih (pulseFor p s)).trans (pulseFor_port p s)

/-! ### Mark and space -/

/-- All a MARK can do (R112). -/
theorem markFor_elapsed (d : Nat) (s : State) (h : s.Timely) :
    Elapsed d { s with seg := .markSeg, carLevel := s.carOn, trace := s.trace ++ [(s.now, s.carOn)] } (markFor d s) :=
  waitFor_elapsed d _ h

/-- All a SPACE can do (R113). -/
theorem spaceFor_elapsed (d : Nat) (s : State) (h : s.Timely) :
    Elapsed d { s with seg := .spaceSeg, carLevel := 0, trace := s.trace ++ [(s.now, 0)] } (spaceFor d s) :=
  waitFor_elapsed d _ h

/-! ### Time passing, then more time passing -/

/-- Two stretches of time with writes of segment, level, trace and slot between them are one. -/
theorem Elapsed.then {d e : Nat} {s t u : State} {seg seg' : Seg} {lv lv' : Nat} {tr tr' : List (Nat × Nat)} {sl sl' : Nat}
    (h : Elapsed d { s with seg := seg, carLevel := lv, trace := tr, slot := sl } t)
    (h' : Elapsed e { t with seg := seg', carLevel := lv', trace := tr', slot := sl' } u) :
    Elapsed (d + e) { s with seg := seg', carLevel := lv', trace := tr', slot := sl' } u := by
  obtain ⟨h1, h2, h3, h4⟩ := h
  obtain ⟨k1, k2, k3, k4⟩ := h'
  have ha : t.armed = s.armed := by rw [h3]
  have hp : t.params = s.params := by rw [h3]
  have hph : t.phase = s.phase := by rw [h3]
  have hn : t.now ≤ u.now := by simp only at k1; omega
  refine ⟨?_, ?_, ?_, ?_⟩
  · simp only at h1 k1 ⊢; omega
  · exact TimerRan.trans (s := s) (t := t) (u := u) h2 k2 ha hp hn
  · rw [k3, h3]
  · simp only at h4 k4 ⊢
    rw [hph] at k4
    rcases k4 with k4 | k4
    · rw [k4]; exact h4
    · exact .inr k4

/-! ### Pulses -/

/-- All a PULSE can do (R114). -/
theorem pulseFor_elapsed (p : Pulse) (s : State) (h : s.Timely) :
    Elapsed (p.mark + p.space)
      { s with seg := .spaceSeg, carLevel := 0, trace := s.trace ++ [(s.now, s.carOn), (s.now + p.mark, 0)] }
      (pulseFor p s) := by
  have h1 := markFor_elapsed p.mark s h
  have ht : (markFor p.mark s).Timely :=
    TimerRan.timely (s := s) h1.2.1 h (markFor_armed _ _) (markFor_params _ _)
  have h2 := spaceFor_elapsed p.space (markFor p.mark s) ht
  have htr : s.trace ++ [(s.now, s.carOn), (s.now + p.mark, 0)]
      = (markFor p.mark s).trace ++ [((markFor p.mark s).now, 0)] := by simp [markFor]
  have hs : s.slot = (markFor p.mark s).slot := by simp
  refine Elapsed.then (sl := s.slot) (sl' := s.slot) h1 ?_
  rw [htr, hs]; exact h2

theorem pulseFor_timely (p : Pulse) (s : State) (h : s.Timely) : (pulseFor p s).Timely :=
  TimerRan.timely (s := s) (pulseFor_elapsed p s h).2.1 h (pulseFor_armed _ _) (pulseFor_params _ _)

@[simp] theorem pulseFor_now (p : Pulse) (s : State) : (pulseFor p s).now = s.now + p.mark + p.space := by
  simp [pulseFor, spaceFor, markFor]

@[simp] theorem pulseFor_trace (p : Pulse) (s : State) :
    (pulseFor p s).trace = s.trace ++ [(s.now, s.carOn), (s.now + p.mark, 0)] := by
  simp [pulseFor, spaceFor, markFor]

@[simp] theorem pulseFor_carLevel (p : Pulse) (s : State) : (pulseFor p s).carLevel = 0 := by
  simp [pulseFor, spaceFor]

@[simp] theorem pulseFor_seg (p : Pulse) (s : State) : (pulseFor p s).seg = .spaceSeg := by
  simp [pulseFor, spaceFor]

@[simp] theorem pulseTime_nil : pulseTime [] = 0 := rfl

@[simp] theorem pulseTime_cons (p : Pulse) (ps : List Pulse) : pulseTime (p :: ps) = p.mark + p.space + pulseTime ps := by
  simp [pulseTime]

/-- All a run of pulses can do: the slots are back to back, in list order (R68, R130). -/
theorem emitPulses_elapsed (p : Pulse) (ps : List Pulse) (s : State) (h : s.Timely) :
    Elapsed (pulseTime (p :: ps))
      { s with seg := .spaceSeg, carLevel := 0, trace := s.trace ++ pulseEvents s.carOn s.now (p :: ps) }
      (emitPulses (p :: ps) s) := by
  induction ps generalizing p s with
  | nil => simpa [emitPulses, pulseTime, pulseEvents] using pulseFor_elapsed p s h
  | cons q qs ih =>
    have h1 := pulseFor_elapsed p s h
    have h2 := ih q (pulseFor p s) (pulseFor_timely p s h)
    have e : s.trace ++ pulseEvents s.carOn s.now (p :: q :: qs)
        = (pulseFor p s).trace ++ pulseEvents (pulseFor p s).carOn (pulseFor p s).now (q :: qs) := by
      simp [pulseEvents]
    have hs : s.slot = (pulseFor p s).slot := by simp
    rw [pulseTime_cons]
    refine Elapsed.then (sl := s.slot) (sl' := s.slot) h1 ?_
    rw [e, hs]; exact h2

/-! ### TXFRAME's loop -/

/-- All TXFRAME's loop can do: the pulses in list order, and `SLOT` counts them (R130). -/
theorem emitSlots_elapsed (p : Pulse) (ps : List Pulse) (s : State) (h : s.Timely) :
    Elapsed (pulseTime (p :: ps))
      { s with seg := .spaceSeg, carLevel := 0, trace := s.trace ++ pulseEvents s.carOn s.now (p :: ps)
               slot := s.slot + (p :: ps).length }
      ((p :: ps).foldl (fun t p => emitSlot p t) s) := by
  induction ps generalizing p s with
  | nil =>
    have h1 := pulseFor_elapsed p s h
    refine Elapsed.then (sl := s.slot) h1 (e := 0) ?_
    refine ⟨rfl, ⟨0, by simp [emitSlot], by simp [emitSlot], by simp [emitSlot], by simp, fun ha => ⟨?_, by simp⟩⟩, ?_, .inl rfl⟩
    · exact ((pulseFor_timely p s h) ha).2
    · ext1 <;> simp [emitSlot, pulseEvents]
  | cons q qs ih =>
    have h1 := pulseFor_elapsed p s h
    have h2 := ih q (emitSlot p s) (pulseFor_timely p s h)
    have e : s.trace ++ pulseEvents s.carOn s.now (p :: q :: qs)
        = (emitSlot p s).trace ++ pulseEvents (emitSlot p s).carOn (emitSlot p s).now (q :: qs) := by
      simp [pulseEvents, emitSlot]
    have hs : s.slot + (p :: q :: qs).length = (emitSlot p s).slot + (q :: qs).length := by simp [emitSlot]; omega
    rw [pulseTime_cons]
    refine Elapsed.then (sl := s.slot) h1 ?_
    rw [e, hs]; exact h2

/-- All TXFRAME can do on a list of at least one pair (R130). -/
theorem transmitFrame_elapsed (s : State) (h : s.Timely) (hp : s.plist ≠ []) :
    Elapsed (pulseTime s.plist)
      { s with phase := .tx, seg := .spaceSeg, carLevel := 0, trace := s.trace ++ pulseEvents s.carOn s.now s.plist
               slot := s.plist.length }
      (transmitFrame s) := by
  obtain ⟨p, ps, hps⟩ := List.exists_cons_of_ne_nil hp
  have h1 := emitSlots_elapsed p ps (startFrame s) h
  rw [← hps] at h1
  simpa [transmitFrame] using h1

end Sys2Proof.Machine
end

