-- ==== Sys2Proof/Laws/Sequence.lean ====
section
/-! SUPPORT. What the draws, the feedback pulse, POLL, WAIT, and the parts of SERVICE and INIT can do, said once each. -/

namespace Sys2Proof.Machine

open Sys2Proof

/-! ### Draws -/

/-- A latency draw consumes the script or the counter, nothing else. -/
theorem drawLatency_frame (s : State) :
    (drawLatency s).2 = { s with env := { s.env with lats := (drawLatency s).2.env.lats }, drawIx := (drawLatency s).2.drawIx } := by
  unfold drawLatency; split <;> rfl

/-- The latency drawn does not depend on the phase. -/
theorem drawLatency_phase (s : State) (ph : Phase) :
    (drawLatency { s with phase := ph }).1 = (drawLatency s).1
    ∧ (drawLatency { s with phase := ph }).2 = { (drawLatency s).2 with phase := ph } := by
  unfold drawLatency
  split <;> simp_all

/-- A drawn latency is within `L_MAX` (R129). -/
theorem boundLatency_le (m n x : Nat) (h : m = n) : boundLatency (some m) x ≤ n := by
  subst h
  cases m with
  | zero => simp [boundLatency]
  | succ k => simp only [boundLatency]; exact Nat.le_of_lt_succ (Nat.mod_lt _ (by omega))

/-- A wake draw consumes the script or the counter, nothing else. -/
theorem drawWake_frame (s : State) :
    (drawWake s).2 = { s with env := { s.env with wakes := (drawWake s).2.env.wakes }, drawIx := (drawWake s).2.drawIx } := by
  unfold drawWake; split <;> rfl

/-- The wake drawn does not depend on the control state. -/
theorem drawWake_control (s : State) (ph : Phase) (c : Ctl) :
    drawWake { s with phase := ph, ctl := c } = ((drawWake s).1, { (drawWake s).2 with phase := ph, ctl := c }) := by
  unfold drawWake
  split <;> simp_all

/-! ### Ports, POLL and the timer's answer -/

theorem armTimer_ok (s : State) (h : s.env.armOk = true) :
    armTimer s = { s with armed := true, nextFire := s.now + s.params.tFrame, ret := true } := by simp [armTimer, h]

theorem armTimer_fail (s : State) (h : s.env.armOk = false) : armTimer s = { s with ret := false } := by simp [armTimer, h]

/-- All an ARM can do (R80). -/
theorem armTimer_cases (s : State) :
    (s.env.armOk = true ∧ armTimer s = { s with armed := true, nextFire := s.now + s.params.tFrame, ret := true })
    ∨ (s.env.armOk = false ∧ armTimer s = { s with ret := false }) := by
  cases h : s.env.armOk
  · exact .inr ⟨rfl, armTimer_fail s h⟩
  · exact .inl ⟨rfl, armTimer_ok s h⟩

/-- All a POLL can do (R128): `ret` is what `DUE` was. -/
theorem pollDue_eq (s : State) : pollDue s = { s with due := false, ret := s.due } := by
  unfold pollDue
  split
  · rename_i h; rw [h]
  · rename_i h
    have h : s.due = false := by simpa using h
    ext1 <;> simp [h]

/-- Without the feedback line STATUS does nothing (R126, R43). -/
theorem statusPulse_none (s : State) (h : s.params.hasStatus = false) : statusPulse s = s := by simp [statusPulse, h]

/-- With the feedback line STATUS is two writes around a wait (R126). -/
theorem statusPulse_some (s : State) (h : s.params.hasStatus = true) :
    statusPulse s = statusWrite false (waitFor s.params.tStatusPulse
      { s with statusOut := true, statusLog := s.statusLog ++ [(s.now, true)] }) := by
  simp [statusPulse, statusWrite, h]

/-- All a STATUS with the feedback line can do (R126). -/
theorem statusPulse_elapsed (s : State) (h : s.params.hasStatus = true) (ht : s.Timely) :
    Elapsed s.params.tStatusPulse
      { s with statusOut := false
               statusLog := s.statusLog ++ [(s.now, true), (s.now + s.params.tStatusPulse, false)] }
      (statusPulse s) := by
  rw [statusPulse_some s h]
  obtain ⟨h1, h2, h3, h4⟩ :=
    waitFor_elapsed s.params.tStatusPulse { s with statusOut := true, statusLog := s.statusLog ++ [(s.now, true)] } ht
  generalize waitFor s.params.tStatusPulse { s with statusOut := true, statusLog := s.statusLog ++ [(s.now, true)] } = t
    at h1 h2 h3 h4
  have hp : t.params = s.params := by rw [h3]
  have hl : t.statusLog = s.statusLog ++ [(s.now, true)] := by rw [h3]
  have hn : t.now = s.now + s.params.tStatusPulse := h1
  have hw : statusWrite false t = { t with statusOut := false, statusLog := t.statusLog ++ [(t.now, false)] } := by
    simp [statusWrite, hp, h]
  rw [hw]
  refine ⟨h1, h2, ?_, h4⟩
  rw [hl, hn, List.append_assoc]
  ext1 <;> simp
  all_goals (rw [h3])

/-! ### WAIT -/

/-- All a WAIT can do (R127): a spurious wake, a TICK, or sleep without an event. -/
theorem sleepUntilWoken_cases (s : State) :
    (∃ x, (drawWake s).1 = some x ∧ (s.armed = true → s.now + x ≤ s.nextFire) ∧
      sleepUntilWoken s = { (drawWake s).2 with phase := .wait, ctl := .poll, now := s.now + x })
    ∨ (s.armed = true ∧ (∀ x, (drawWake s).1 = some x → s.nextFire < s.now + x) ∧
      sleepUntilWoken s = { (drawWake s).2 with
        phase := .wait, ctl := .poll, now := s.nextFire, due := true
        nextFire := s.nextFire + s.params.tFrame, ticks := s.ticks ++ [s.nextFire] })
    ∨ (s.armed = false ∧ (drawWake s).1 = none ∧
      sleepUntilWoken s = { (drawWake s).2 with phase := .wait, ctl := .wait }) := by
  have hd := drawWake_control s .wait .wait
  have hf := drawWake_frame s
  have ha : (drawWake s).2.armed = s.armed := by rw [hf]
  have hn : (drawWake s).2.nextFire = s.nextFire := by rw [hf]
  have hw : (drawWake s).2.now = s.now := by rw [hf]
  have ht : (drawWake s).2.ticks = s.ticks := by rw [hf]
  have hp : (drawWake s).2.params = s.params := by rw [hf]
  unfold sleepUntilWoken
  rw [hd]
  cases hx : (drawWake s).1 with
  | none =>
    cases h : s.armed
    · exact .inr (.inr ⟨rfl, rfl, by simp [ha, h]⟩)
    · exact .inr (.inl ⟨rfl, by simp, by simp [ha, h, tickFire, hn, ht, hp]⟩)
  | some x =>
    by_cases hc : s.armed = true ∧ s.nextFire < s.now + x
    · refine .inr (.inl ⟨hc.1, by simpa using hc.2, ?_⟩)
      simp [ha, hn, hw, hc.1, hc.2, tickFire, ht, hp]
    · refine .inl ⟨x, rfl, fun h => by rw [not_and] at hc; exact Nat.le_of_not_lt (hc h), ?_⟩
      have : (s.armed && decide (s.nextFire < s.now + x)) = false := by
        cases h : s.armed
        · rfl
        · rw [not_and] at hc; simpa using hc h
      simp [ha, hn, hw, this]

/-! ### SERVICE -/

/-- All the entry of SERVICE can do: `LAT` passes (R129). -/
theorem enterService_elapsed (s : State) (h : s.Timely) :
    Elapsed (drawLatency s).1 { s with phase := .service, env := { s.env with lats := (drawLatency s).2.env.lats } }
      (enterService s) := by
  obtain ⟨e1, e2⟩ := drawLatency_phase s .service
  have hf := drawLatency_frame s
  unfold enterService
  rw [e1, e2]
  have ht : State.Timely { (drawLatency s).2 with phase := .service } := by rw [hf]; exact h
  obtain ⟨h1, h2, h3, h4⟩ := waitFor_elapsed (drawLatency s).1 _ ht
  generalize waitFor (drawLatency s).1 { (drawLatency s).2 with phase := Phase.service } = t at h1 h2 h3 h4
  rw [hf] at h1 h2 h3 h4
  exact ⟨h1, h2, by rw [h3], h4⟩

/-- The snapshot depends on the map, the stimulus, the epoch and the time only (R41, R90). -/
theorem snapshot_congr {s t : State} (hp : t.params = s.params) (hi : t.env.inputs = s.env.inputs) (he : t.epoch = s.epoch)
    (hn : t.now = s.now) :
    snapshotOf t.params.channelMap (bankRead t) = snapshotOf s.params.channelMap (bankRead s) := by
  have key : ∀ (p : Params) (i : List (Nat × Nat)) (e n : Nat) (a b : State), a.params = p → b.params = p →
      a.env.inputs = i → b.env.inputs = i → a.epoch = e → b.epoch = e → a.now = n → b.now = n →
      snapshotOf a.params.channelMap (bankRead a) = snapshotOf b.params.channelMap (bankRead b) := by
    rintro p i e n ⟨⟩ ⟨⟩ rfl h2 rfl h4 rfl h6 rfl h8
    simp only at h2 h4 h6 h8
    subst h2 h6 h8
    simp only [bankRead, inRaw, inRawBefore, h4]
    rfl
  exact key s.params s.env.inputs s.epoch s.now t s hp rfl hi rfl he rfl hn rfl

/-- All a SERVICE can do up to GATE's answer (R129): the latency passes, the lines are read at its end, the snapshot is counted. -/
theorem serviceToGate_elapsed (s : State) (h : s.Timely) :
    Elapsed (drawLatency s).1
      { s with
        phase := .service
        snap := snapshotOf s.params.channelMap (bankRead { s with now := s.now + (drawLatency s).1 })
        idleCnt := idleCount (snapshotOf s.params.channelMap (bankRead { s with now := s.now + (drawLatency s).1 })) s.idleCnt
        ret := gateTransmit s.params
          (snapshotOf s.params.channelMap (bankRead { s with now := s.now + (drawLatency s).1 })) s.idleCnt
        env := { s.env with lats := (drawLatency s).2.env.lats } }
      (idleGate (settleTick (sampleInputs (enterService s)))) := by
  obtain ⟨e1, e2, e3, e4⟩ := enterService_elapsed s h
  generalize enterService s = u at e1 e2 e3 e4
  have hs : snapshotOf u.params.channelMap (bankRead u)
      = snapshotOf s.params.channelMap (bankRead { s with now := s.now + (drawLatency s).1 }) := by
    have q1 : u.params = s.params := by rw [e3]
    have q2 : u.env.inputs = s.env.inputs := by rw [e3]
    have q3 : u.epoch = s.epoch := by rw [e3]
    exact snapshot_congr (s := { s with now := s.now + (drawLatency s).1 }) (t := u) q1 q2 q3 e1
  generalize snapshotOf s.params.channelMap (bankRead { s with now := s.now + (drawLatency s).1 }) = v at hs
  have hu : Elapsed (drawLatency s).1
      { s with phase := .service, snap := v, env := { s.env with lats := (drawLatency s).2.env.lats } } (sampleInputs u) := by
    refine ⟨e1, e2, ?_, e4⟩
    simp only [sampleInputs, hs]
    rw [e3]
  have hw := hu.trans (settleTick_elapsed _ (hu.timely h))
  generalize settleTick (sampleInputs u) = w at hw
  obtain ⟨w1, w2, w3, w4⟩ := hw
  refine ⟨w1, w2, ?_, w4⟩
  have q1 : w.snap = v := by rw [w3]
  have q2 : w.params = s.params := by rw [w3]
  have q3 : w.idleCnt = s.idleCnt := by rw [w3]
  simp only [idleGate, q1, q2, q3]
  rw [w3]

end Sys2Proof.Machine
end

