-- ==== Sys2Proof/Tests/Slice0.lean ====
section
/-! SUPPORT. The author's own tests. Expected values come from spec/95_test_vectors.md (the vector is named in each comment) and the
parameter set is its TP1 (spec/00_scope.md R6). The last part shows, for each statement with hypotheses, a state that meets them. -/

namespace Sys2Proof.Tests

open Sys2Proof Sys2Proof.Machine

/-- TP1 (R6). -/
def tp1 : Params where
  tHdrMark := 2000
  tHdrSpace := 1000
  tZeroMark := 100
  tZeroSpace := 300
  tOneMark := 300
  tOneSpace := 100
  tGap := 11150
  idleThreshold := 4
  fCarrierNum := 50000
  fCarrierDen := 1
  dutyNum := 1
  dutyDen := 4
  pwmNum := 1000000
  pwmDen := 1
  channelMap := [2, 3, 4, 5, 6, 7, 8, 9, 10, 11, 12, 13]
  bankWidth := 16
  hasStatus := true
  tStatusPulse := 1000
  lMax := some 0
  idleComparePre := false

/-- An environment that answers every draw itself. -/
def quiet (raw : Nat) : Env := ⟨true, [(0, raw)], [0], [none], [true], false⟩

/-- Right after reset, with TP1 and the lines at `raw`. -/
def cold (raw : Nat) : State := { State.afterReset tp1 (quiet raw) 0 0 with carPhi := 0 }

/-- A working block at its first TICK, waiting. -/
def rig (raw : Nat) : State :=
  { cold raw with
    phase := .wait, ctl := .wait, carWrap := 20, carOn := 5, armed := true, now := 24150, nextFire := 48300
    trace := [(0, 0)] }

/-- A test of the next state. -/
def onNext (o : Host.Outcome State Fault Refusal) (f : State → Bool) : Bool :=
  match o with
  | .next t => f t
  | .fault _ => false
  | .refused _ => false

/-! ### Well-formedness: each check refuses an ill-formed term -/

theorem test_wf_mark : (Instr.mark 0).wf = false ∧ (Instr.mark 1).wf = true := by decide

theorem test_wf_space : (Instr.space 0).wf = false ∧ (Instr.space 1).wf = true := by decide

theorem test_wf_pulse : (Instr.pulse 0 1).wf = false ∧ (Instr.pulse 1 0).wf = false ∧ (Instr.pulse 1 1).wf = true := by
  decide

theorem test_wf_params : tp1.wf = true := by decide

/-- R4: a duration, the threshold, a rational or the status pulse out of range. -/
theorem test_wf_ranges :
    [{ tp1 with tHdrMark := 0 }, { tp1 with tHdrSpace := 0 }, { tp1 with tZeroMark := 0 }, { tp1 with tZeroSpace := 0 },
      { tp1 with tOneMark := 0 }, { tp1 with tOneSpace := 0 }, { tp1 with tGap := 0 }, { tp1 with idleThreshold := 0 },
      { tp1 with fCarrierNum := 0 }, { tp1 with fCarrierDen := 0 }, { tp1 with dutyNum := 0 }, { tp1 with dutyNum := 4 },
      { tp1 with pwmNum := 0 }, { tp1 with pwmDen := 0 }, { tp1 with tStatusPulse := 0 }].all
      (fun p => !p.rangesOk && !p.wf) = true := by decide

/-- R5 (a), (b): unequal bit durations; a zero's mark not the shorter. -/
theorem test_wf_bits :
    [{ tp1 with tOneSpace := 101 }, { tp1 with tZeroMark := 300, tZeroSpace := 100 }].all
      (fun p => !p.bitsOk && !p.wf) = true := by decide

/-- R15, D6: eleven lines; a line twice; a line outside the bank; a bank of 11. -/
theorem test_wf_map :
    [{ tp1 with channelMap := [2, 3, 4, 5, 6, 7, 8, 9, 10, 11, 12] },
      { tp1 with channelMap := [2, 2, 4, 5, 6, 7, 8, 9, 10, 11, 12, 13] },
      { tp1 with channelMap := [2, 3, 4, 5, 6, 7, 8, 9, 10, 11, 12, 16] },
      { tp1 with bankWidth := 11 }].all (fun p => !p.mapOk && !p.wf) = true := by decide

/-- V-MOD-3: the `require` of CARCFG. -/
theorem test_wf_carrier : { tp1 with pwmNum := 100000 }.carrierOk = false ∧ { tp1 with pwmNum := 100000 }.wf = false := by
  decide

/-! ### Decoding: words written out from the spec's encodings -/

/-- V-ENC-3: `H 0 000000000101 111111111010`. -/
theorem test_decode_frame :
    (decodeRun 0 [.hdr, .zero, .zero, .zero, .zero, .zero, .zero, .zero, .zero, .zero, .zero, .one, .zero, .one,
      .one, .one, .one, .one, .one, .one, .one, .one, .one, .zero, .one, .zero]).toOption = some (.frame 0x005) := by decide

/-- V-ENC-4: bit 24 is 0, the data 1010 0101 1100, the check 0101 1010 0011. -/
theorem test_decode_txw : decodeTableWord 32 0b0101001011100010110100011 = some (.txw 0xA5C) := by decide

/-- V-ENC-9 with the header's place, bit 25, filled. -/
theorem test_decode_frame_word : decodeTableWord 32 0b10000100100011111011011100 = some (.frame 0x123) := by decide

/-- R61 and R62: the header symbol, a zero bit, a one bit, the id bit; each in its slot. -/
theorem test_decode_symbols :
    (decodeRun 0 [.hdr]).toOption = some .hdr ∧ (decodeRun 2 [.zero]).toOption = some .zero
    ∧ (decodeRun 25 [.one]).toOption = some .one ∧ (decodeRun 1 [.zero]).toOption = some .id := by decide

theorem test_decode_symbol_words :
    decodeTableWord 8 0 = some .zero ∧ decodeTableWord 8 1 = some .one ∧ decodeTableWord 8 2 = some .id
    ∧ decodeTableWord 8 3 = none := by decide

/-- V-ENC-14: an id bit of 1; a check that is not the complement; a word that is too long. -/
theorem test_decode_rejects :
    decodeTableWord 32 0x1005FFA = none ∧ decodeTableWord 32 0x0005FFB = none ∧ decodeTableWord 32 (2 ^ 26) = none := by
  decide

/-- The words of V-ENC-1, 2, 5, 6, 7 and 8 are the encoder's. -/
theorem test_encode_words :
    [0x000, 0xFFF, 0x800, 0x001, 0x555, 0xAAA].map (fun v => (frameWord (BitVec.ofNat 12 v)).toNat)
      = [0x0000FFF, 0x0FFF000, 0x08007FF, 0x0001FFE, 0x0555AAA, 0x0AAA555] := by decide

/-- V-ENC-13. -/
theorem test_receiver :
    (decodeMarks tp1 [2000, 100, 300, 100, 300, 100, 100, 300, 100, 300, 300, 300, 100, 100, 100, 300, 100, 300, 300, 100,
      300, 100, 100, 100, 300, 300]).toOption = some (.frame 0xA5C) := by decide

/-! ### The wire items -/

/-- Total duration 13000 (V-ENC), level 0 at the end, 52 events. -/
theorem test_frame : onNext (exec (.frame 0x005) (rig 0xFFFF))
    (fun t => t.now == 37150 && t.carLevel == 0 && t.trace.length == 53 && t.txw == 0) = true := by decide +kernel

/-- V-ENC-10's envelope without the header: the first one bit is data bit 2, at bit slot 11. -/
theorem test_txw : onNext (exec (.txw 0x005) (rig 0xFFFF))
    (fun t => t.now == 34150 && t.trace[21]? == some (28150, 5) && t.trace[22]? == some (28450, 0)) = true := by
  decide +kernel

/-- TP1's header pulse, `+2000 -1000`. -/
theorem test_hdr : onNext (exec .hdr (rig 0xFFFF))
    (fun t => t.now == 27150 && t.trace == [(0, 0), (24150, 5), (26150, 0)]) = true := by decide +kernel

/-- TP1's zero bit, `+100 -300`. -/
theorem test_zero : onNext (exec .zero (rig 0xFFFF))
    (fun t => t.now == 24550 && t.trace == [(0, 0), (24150, 5), (24250, 0)]) = true := by decide +kernel

/-- TP1's one bit, `+300 -100`. -/
theorem test_one : onNext (exec .one (rig 0xFFFF))
    (fun t => t.now == 24550 && t.trace == [(0, 0), (24150, 5), (24450, 0)]) = true := by decide +kernel

/-- R62: the id bit is a zero bit. -/
theorem test_id : onNext (exec .id (rig 0xFFFF))
    (fun t => t.now == 24550 && t.trace == [(0, 0), (24150, 5), (24250, 0)]) = true := by decide +kernel

/-! ### The scheduler -/

/-- V-SCH-1. -/
theorem test_arm : onNext (exec .arm (cold 0xFFFF))
    (fun t => t.ret && t.armed && t.nextFire == 24150 && !t.due) = true := by decide +kernel

/-- V-SCH-2. -/
theorem test_arm_fails : onNext (exec .arm { cold 0xFFFF with env := { quiet 0xFFFF with armOk := false } })
    (fun t => !t.ret && !t.armed && t.nextFire == 0) = true := by decide +kernel

/-- V-SCH-4: coalesced. -/
theorem test_tick : onNext (exec .tick { rig 0xFFFF with now := 48300, due := true })
    (fun t => t.due && t.nextFire == 72450 && t.ticks == [48300]) = true := by decide +kernel

/-- V-SCH-6: in a mark nothing but `DUE`, `NEXT_FIRE` and `TICKS` changes. -/
theorem test_tick_in_mark :
    exec .tick { rig 0xFFFF with now := 48300, phase := .tx, ctl := .mark, slot := 7, carLevel := 5 }
      = .next { rig 0xFFFF with
          now := 48300, phase := .tx, ctl := .mark, slot := 7, carLevel := 5, due := true, nextFire := 72450
          ticks := [48300] } := rfl

/-! ### The sampler, the gate and the encoder -/

/-- V-SMP-2, V-SMP-3, V-SMP-5 and V-SMP-10. -/
theorem test_sample : [0xFFFB, 0xDFFF, 0x0000, 0xF16B].map (fun raw => onNext (exec .sample (rig raw))
    (fun t => (raw, t.snap) ∈ [(0xFFFB, 0x800#12), (0xDFFF, 0x001#12), (0x0000, 0xFFF#12), (0xF16B, 0xA5C#12)]))
    = [true, true, true, true] := by decide +kernel

/-- V-SMP-7: the lines change at 24150; samples at 24149 and 24151. -/
theorem test_sample_instant :
    let s := { rig 0 with env := { quiet 0 with inputs := [(0, 0xFFFB), (24150, 0xDFFF)] } }
    onNext (exec .sample { s with now := 24149 }) (fun t => t.snap == 0x800#12) = true
    ∧ onNext (exec .sample { s with now := 24151 }) (fun t => t.snap == 0x001#12) = true := by decide +kernel

/-- V-GAT-3, V-GAT-4 and V-GAT-8. -/
theorem test_gate :
    onNext (exec .gate { rig 0 with idleCnt := 2 }) (fun t => t.idleCnt == 3 && t.ret) = true
    ∧ onNext (exec .gate { rig 0 with idleCnt := 3 }) (fun t => t.idleCnt == 4 && !t.ret) = true
    ∧ onNext (exec .gate { rig 0 with idleCnt := 3, snap := 0x800 }) (fun t => t.idleCnt == 0 && t.ret) = true := by
  decide +kernel

/-- V-GAT-12 and V-GAT-13: the overruled reading. -/
theorem test_gate_pre :
    let s := { rig 0 with params := { tp1 with idleComparePre := true } }
    onNext (exec .gate { s with idleCnt := 3 }) (fun t => t.idleCnt == 4 && t.ret) = true
    ∧ onNext (exec .gate { s with idleCnt := 4 }) (fun t => t.idleCnt == 5 && !t.ret) = true := by decide +kernel

/-- V-ENC-12: the pulse list of 0x800, and its word (V-ENC-5). -/
theorem test_encode : onNext (exec .encode { rig 0 with snap := 0x800 })
    (fun t => t.txw == 0x08007FF#25
      && t.plist == ⟨2000, 1000⟩ :: ⟨100, 300⟩ :: ⟨300, 100⟩ :: (List.replicate 12 ⟨100, 300⟩ ++ List.replicate 11 ⟨300, 100⟩))
    = true := by decide +kernel

/-! ### The modulator -/

/-- V-MOD-1 and V-MOD-2. -/
theorem test_carcfg :
    onNext (exec .carcfg (cold 0)) (fun t => t.carWrap == 20 && t.carOn == 5) = true
    ∧ onNext (exec .carcfg { cold 0 with params := { tp1 with fCarrierNum := 38000, dutyDen := 3 } })
        (fun t => t.carWrap == 26 && t.carOn == 8) = true := by decide +kernel

/-- V-MOD-3. -/
theorem test_carcfg_refused :
    exec .carcfg { cold 0 with params := { tp1 with pwmNum := 100000 } } = .refused .malformedParams := rfl

/-- V-MOD-4. -/
theorem test_setlvl : onNext (exec (.setlvl .on) (rig 0))
    (fun t => t.carLevel == 5 && t.trace == [(0, 0), (24150, 5)] && t.now == 24150) = true := by decide +kernel

/-- V-MOD-5. -/
theorem test_mark : onNext (exec (.mark 100) { rig 0 with now := 27150 })
    (fun t => t.now == 27250 && t.carLevel == 5 && t.seg == .markSeg && envelopeAt t 27150 && envelopeAt t 27249) = true := by
  decide +kernel

/-- V-MOD-8: a TICK in a mark leaves its length alone. -/
theorem test_mark_tick : onNext (exec (.mark 300) { rig 0 with now := 31550, nextFire := 31700 })
    (fun t => t.now == 31850 && t.due && t.ticks == [31700] && t.carLevel == 5) = true := by decide +kernel

/-- V-MOD-6. -/
theorem test_space : onNext (exec (.space 300) { rig 0 with now := 27250, carLevel := 5, trace := [(27150, 5)] })
    (fun t => t.now == 27550 && t.carLevel == 0 && t.seg == .spaceSeg && !envelopeAt t 27250 && !envelopeAt t 27549) = true := by
  decide +kernel

/-- V-MOD-7. -/
theorem test_pulse : onNext (exec (.pulse 100 300) { rig 0 with now := 27150 })
    (fun t => t.now == 27550 && t.trace == [(0, 0), (27150, 5), (27250, 0)]) = true := by decide +kernel

/-- V-MOD-9, V-MOD-10 and V-MOD-11: rising edges in `MARK 100` on `[27150, 27250)` for three phases. -/
theorem test_edges :
    [0, 10, 12].map (fun phi => risingEdges { rig 0 with carPhi := phi } 27150 100) = [5, 5, 6] := by decide +kernel

/-! ### The sequencer -/

/-- V-SEQ-1. -/
theorem test_init : onNext (exec .init (cold 0xFFFF))
    (fun t => t.carWrap == 20 && t.carOn == 5 && t.carLevel == 0 && t.trace == [(0, 0)] && t.armed && t.nextFire == 24150
      && statusAt t 0 && statusAt t 999 && !statusAt t 1000 && t.phase == .wait && t.now == 1000) = true := by decide +kernel

/-- V-SEQ-9. -/
theorem test_init_fails : onNext (exec .init { cold 0xFFFF with env := { quiet 0xFFFF with armOk := false } })
    (fun t => t.phase == .halt && t.halted && !t.armed && !t.statusOut && t.trace == [(0, 0)]) = true := by decide +kernel

/-- R126 (b): without the feedback line nothing happens. -/
theorem test_status :
    exec .status { rig 0 with params := { tp1 with hasStatus := false } }
      = .next { rig 0 with params := { tp1 with hasStatus := false } } := rfl

/-- V-SEQ-3: WAIT entered at 1000, woken by the TICK at 24150. -/
theorem test_wait : onNext (exec .wait { rig 0 with now := 1000, nextFire := 24150 })
    (fun t => t.now == 24150 && t.due && t.ctl == .poll && t.nextFire == 48300) = true := by decide +kernel

/-- V-SEQ-4: a spurious wake at 30000. -/
theorem test_wait_spurious : onNext (exec .wait { rig 0 with env := { quiet 0 with wakes := [some 5850] } })
    (fun t => t.now == 30000 && !t.due && t.ctl == .poll && t.nextFire == 48300) = true := by decide +kernel

/-- R128. -/
theorem test_poll : onNext (exec .poll { rig 0 with due := true }) (fun t => t.ret && !t.due) = true
    ∧ onNext (exec .poll (rig 0)) (fun t => !t.ret && !t.due) = true := by decide +kernel

/-- V-SEQ-5. -/
theorem test_service : onNext (exec .service (rig 0xFFFF))
    (fun t => t.snap == 0 && t.idleCnt == 1 && t.txw == 0x0000FFF#25 && t.slot == 26 && t.carLevel == 0 && t.phase == .wait
      && t.now == 37150 && t.trace.length == 53) = true := by decide +kernel

/-- V-SEQ-6. -/
theorem test_service_suppressed : onNext (exec .service { rig 0xFFFF with now := 96600, nextFire := 120750, idleCnt := 3 })
    (fun t => t.snap == 0 && t.idleCnt == 4 && t.txw == 0 && t.trace == [(0, 0)] && t.phase == .wait && t.now == 96600)
    = true := by decide +kernel

/-- V-SEQ-7. -/
theorem test_txframe : onNext (exec .txframe { rig 0 with plist := pulseList tp1 0 })
    (fun t => t.now == 37150 && t.slot == 26 && t.trace[3]? == some (27150, 5) && t.trace.length == 53) = true := by
  decide +kernel

/-- R131. -/
theorem test_halt : onNext (exec .halt (rig 0)) (fun t => t.halted && t.phase == .halt && t.now == 24150) = true := by
  decide +kernel

/-! ### The step -/

/-- V-FLT-4: reset in slot 7 of a frame. -/
theorem test_reset : onNext (step { rig 0 with
      env := { quiet 0 with resetIn := true }, phase := .tx, ctl := .space, slot := 7, carLevel := 5, due := true })
    (fun t => t.carLevel == 0 && !t.due && t.idleCnt == 0 && !t.armed && t.now == 0 && t.phase == .reset) = true := by
  decide +kernel

/-- V-FLT-3's second run: the TICK at the instant a frame ends comes first, so the block waits with `DUE = 1`. -/
theorem test_tick_first : onNext (step { rig 0 with
      phase := .tx, ctl := .space, slot := 25, now := 48200, plist := pulseList tp1 0 })
    (fun t => t.now == 48300 && t.due && t.phase == .wait && t.ctl == .wait && t.nextFire == 72450) = true := by
  decide +kernel

/-- V-FLT-3's first run: WAIT is entered first, so the TICK wakes it. -/
theorem test_wait_first : onNext (step { rig 0 with
      env := { quiet 0 with orders := [false, true] }, phase := .tx, ctl := .space, slot := 25, now := 48200
      plist := pulseList tp1 0 })
    (fun t => t.now == 48300 && t.due && t.phase == .wait && t.ctl == .poll && t.nextFire == 72450) = true := by
  decide +kernel

/-- R48: a TICK due at the instant of SAMPLE may come between SAMPLE and GATE, or later; it touches no working variable. -/
theorem test_tick_between_operations : [true, false].map (fun b => onNext (step { rig 0 with
      env := { quiet 0 with orders := [b] }, phase := .service, ctl := .sample, now := 48300 })
    (fun t => t.due == b && t.snap == 0xFFF#12 && t.phase == .service && t.ctl == .gate && t.ticks.length == b.toNat))
    = [true, true] := by decide +kernel

/-- A presented word runs as its item. -/
theorem test_step_word : onNext (step ((rig 0).withFetchWord 8 1)) (fun t => t.now == 24550 && t.port == none) = true := by
  decide +kernel

/-! ### Witnesses: the hypotheses of the statements of Certificates/Slice0/Obligations.lean can be met -/

/-- A block at control position `c` that meets the invariant: TP1, snapshot 0x005, the frame at slot 7. -/
def stateAt (c : Ctl) : State :=
  { rig 0xD7FF with
    ctl := c, phase := phaseOf c, armed := !beforeArm c, snap := 0x005, txw := 0x0005FFA, plist := pulseList tp1 0x005, slot := 7
    carLevel := if c = .space then 5 else 0, ret := true
    trace := if c = .space then [(0, 0), (24150, 5)] else [(0, 0)] }

theorem witness_blockInv (c : Ctl) : BlockInv (stateAt c) := by
  constructor <;> cases c <;> first | decide +kernel | (unfold AllBy; decide +kernel)

theorem witness_running (c : Ctl) : Running (stateAt c) := by cases c <;> exact ⟨rfl, rfl, rfl⟩

theorem witness_timely : (rig 0xFFFF).Timely ∧ (rig 0xFFFF).params.bitsOk = true := ⟨fun _ => by decide, by decide⟩

/-- The last slot of a frame; its SPACE ends TXFRAME. -/
def lastSlot : State := { stateAt .space with slot := 25 }

theorem witness_blockInv_lastSlot : BlockInv lastSlot := by
  constructor <;> first | decide +kernel | (unfold AllBy; decide +kernel)

theorem witness_DecodeOfEncodedItem :
    encode (.frame 0xA5C) = some (0, frameSyms 0xA5C) ∧ encode (.txw 0x000) = some (1, bitSyms (frameWord 0x000))
    ∧ encode .hdr = some (0, [.hdr]) ∧ encode .id = some (1, [.zero]) := ⟨rfl, rfl, rfl, rfl⟩

/-- Each clause: the encoder's own run, and a lone bit at the first and the last of its slots. -/
theorem witness_DecodedRunIsItsEncoding :
    (decodeRun 1 (bitSyms 0x0A5C5A3)).toOption = some (.txw 0xA5C) ∧ (decodeRun 2 [.one]).toOption = some .one
    ∧ (decodeRun 25 [.zero]).toOption = some .zero ∧ (decodeRun 26 [.zero]).toOption = none := by decide

/-- The first and last check bit, the first and last bit slot. -/
theorem witness_FrameWordAndCheckField :
    (checkField 0x005).getLsbD 0 = false ∧ (checkField 0x005).getLsbD 11 = true
    ∧ (bitSyms (frameWord 0x005))[0]? = some .zero ∧ (bitSyms (frameWord 0x005))[24]? = some .zero := by decide

/-- The first and last data and check slots (V-ENC-5). -/
theorem witness_PulseListLayout :
    (pulseList tp1 0x800)[2]? = some ⟨300, 100⟩ ∧ (pulseList tp1 0x800)[13]? = some ⟨100, 300⟩
    ∧ (pulseList tp1 0x800)[14]? = some ⟨100, 300⟩ ∧ (pulseList tp1 0x800)[25]? = some ⟨300, 100⟩ := by decide

/-- V-ENC-11: slots 1 and 25 begin at 3000 and 12600. -/
theorem witness_FrameTotals :
    tp1.bitsOk = true ∧ pulseTime ((pulseList tp1 0x005).take 1) = 3000
    ∧ pulseTime ((pulseList tp1 0x005).take 25) = 12600 := by decide

theorem witness_EncodingInjective : tp1.bitsOk = true ∧ (0x000 : Snapshot) ≠ 0x001 := by decide

/-- V-ENC-14, and a frame without its last slot. -/
theorem witness_IllFormedRunsRejected :
    (0x1005FFA : FrameWord).getLsbD 24 = true
    ∧ ((0x0005FFB : FrameWord).getLsbD 24 = false
      ∧ (0x0005FFB : FrameWord).extractLsb' 0 12 ≠ checkField ((0x0005FFB : FrameWord).extractLsb' 12 12))
    ∧ ((frameSyms 0x005).take 25).length ≠ 26 := by decide

theorem witness_ReceiverInverse : tp1.bitsOk = true := by decide

theorem witness_TableWordRoundTrip :
    encodeWord (.frame 0x005) = some (32, 0x2005FFA) ∧ encodeWord .one = some (8, 1) := by decide

theorem witness_FrameItemEmitsFrame : (rig 0xFFFF).Timely ∧ (rig 0xFFFF).params.bitsOk = true := witness_timely

theorem witness_FrameWordItemEmitsBitSlots : (rig 0xFFFF).Timely ∧ (rig 0xFFFF).params.bitsOk = true := witness_timely

theorem witness_SymbolItemsEmitOnePulse : (rig 0xFFFF).Timely := witness_timely.1

theorem witness_ArmResult :
    (cold 0).env.armOk = true ∧ { cold 0 with env := { quiet 0 with armOk := false } }.env.armOk = false := ⟨rfl, rfl⟩

theorem witness_TickEffect : let s := { rig 0 with now := 48300 }
    s.armed = true ∧ s.now = s.nextFire := ⟨rfl, rfl⟩

/-- Unarmed, and armed one microsecond early. -/
theorem witness_TickWhenNotEnabled :
    (cold 0).armed = false ∧ ({ rig 0 with now := 48299 } : State).now ≠ (rig 0).nextFire := ⟨rfl, by decide⟩

/-- A space over one TICK. -/
theorem witness_TicksCoalesce :
    (rig 0).Timely ∧ ∃ t, exec (.space 30000) (rig 0) = .next t ∧ (rig 0).ticks.length < t.ticks.length :=
  ⟨fun _ => by decide, _, rfl, by decide +kernel⟩

theorem witness_FixedRateKept :
    ((cold 0).env.armOk = true ∧ (cold 0).ticks = [] ∧ ∃ t, exec .arm (cold 0) = .next t)
    ∧ (BlockInv (stateAt .wait) ∧ (stateAt .wait).armed = true ∧ FixedRate 24150 (stateAt .wait)
      ∧ ∃ t, step (stateAt .wait) = .next t ∧ t.armed = true) :=
  ⟨⟨rfl, rfl, _, rfl⟩, witness_blockInv .wait, rfl, ⟨rfl, rfl⟩, _, rfl, by decide +kernel⟩

/-- Lines that hold their level, Channel Map elements 0 and 11 among them. -/
theorem witness_SampleSteadyLines :
    (rig 0xDFFB).params.mapOk = true ∧ inRawBefore (rig 0xDFFB) (rig 0xDFFB).now = inRaw (rig 0xDFFB) (rig 0xDFFB).now := by
  decide +kernel

/-- Lines that change at the sampling instant. -/
theorem witness_SampleChangingLines :
    let s := { rig 0 with env := { quiet 0 with inputs := [(0, 0xFFFB), (24150, 0xDFFF)] } }
    s.params.mapOk = true ∧ inRawBefore s s.now ≠ inRaw s s.now := by decide +kernel

/-- The three clauses: a held key, and the counter just below the threshold under both readings. -/
theorem witness_GateRule :
    let s := { rig 0 with snap := 0x800, idleCnt := 3 }
    let s' := { rig 0 with idleCnt := 3 }
    let s'' := { rig 0 with idleCnt := 3, params := { tp1 with idleComparePre := true } }
    s.snap ≠ 0 ∧ (s'.snap = 0 ∧ s'.params.idleComparePre = false) ∧ (s''.snap = 0 ∧ s''.params.idleComparePre = true) := by
  decide

/-- `N = 1`, the least threshold, under both readings. -/
theorem witness_IdleCountingLaw :
    let s := { rig 0 with params := { tp1 with idleThreshold := 1 } }
    let s' := { rig 0 with params := { tp1 with idleThreshold := 1, idleComparePre := true } }
    (s.snap = 0 ∧ s.idleCnt = 0 ∧ 1 ≤ s.params.idleThreshold ∧ s.params.idleComparePre = false)
    ∧ (s'.snap = 0 ∧ s'.idleCnt = 0 ∧ 1 ≤ s'.params.idleThreshold ∧ s'.params.idleComparePre = true) := by decide

theorem witness_CarcfgDerivesOrRefuses :
    (cold 0).params.wf = true ∧ ({ cold 0 with params := { tp1 with pwmNum := 100000 } } : State).params.wf = false := by
  decide

theorem witness_MarkHoldsCarrier : (rig 0).Timely ∧ 0 < (rig 0).carOn := ⟨fun _ => by decide, by decide⟩

theorem witness_SpaceSilences : (rig 0).Timely := fun _ => by decide

theorem witness_PulseIsMarkThenSpace : (rig 0).Timely := fun _ => by decide

theorem witness_allBy : AllBy (rig 0).trace (rig 0).now := by
  intro e he
  cases he with
  | head => decide
  | tail _ h => cases h

/-- Both clauses, at the ends of the mark and of the space. -/
theorem witness_PulseEnvelope :
    AllBy (rig 0).trace (rig 0).now ∧ 0 < (rig 0).carOn
    ∧ ∃ t, exec (.pulse 100 300) (rig 0) = .next t ∧ envelopeAt t 24150 = true ∧ envelopeAt t 24249 = true
      ∧ envelopeAt t 24250 = false ∧ envelopeAt t 24549 = false :=
  ⟨witness_allBy, by decide, _, rfl, by decide +kernel⟩

/-- The last slot, at the ends of its mark and of its space. -/
theorem witness_FrameEnvelope :
    let s := { rig 0 with plist := pulseList tp1 0x005 }
    AllBy s.trace s.now ∧ 0 < s.carOn ∧ s.plist[25]? = some ⟨100, 300⟩ ∧ pulseTime (s.plist.take 25) = 12600
    ∧ ∃ t, exec .txframe s = .next t ∧ envelopeAt t 36750 = true ∧ envelopeAt t 36849 = true
      ∧ envelopeAt t 36850 = false ∧ envelopeAt t 37149 = false :=
  ⟨witness_allBy, by decide, by decide, by decide, _, rfl, by decide +kernel⟩

/-- The line in a MARK from 24150 to 24250, carrier phase 0: high in the first 5 of every 20 microseconds. -/
theorem witness_CarrierSquareWave :
    (rig 0).carOn < (rig 0).carWrap
    ∧ onNext (exec (.mark 100) (rig 0)) (fun t => [24150, 24160, 24164, 24165, 24249].map (irOutAt t)
      == [false, true, true, false, false]) = true := by decide +kernel

theorem witness_RisingEdgesBound : 0 < (rig 0).carOn ∧ (rig 0).carOn < (rig 0).carWrap := by decide

/-- With and without the feedback line. -/
theorem witness_InitSucceeds :
    ((cold 0).params.wf = true ∧ (cold 0).env.armOk = true ∧ (cold 0).params.hasStatus = true)
    ∧ let s := { cold 0 with params := { tp1 with hasStatus := false } }
      s.params.wf = true ∧ s.env.armOk = true ∧ s.params.hasStatus = false := by decide

theorem witness_InitFailureHalts :
    let s := { cold 0 with env := { quiet 0 with armOk := false } }
    s.params.wf = true ∧ s.env.armOk = false := by decide

/-- With the feedback line, at the ends of its pulse; without it. -/
theorem witness_StatusGivesOnePulse :
    ((rig 0).params.hasStatus = true ∧ (rig 0).Timely ∧ AllBy (rig 0).statusLog (rig 0).now
      ∧ ∃ t, exec .status (rig 0) = .next t ∧ statusAt t 24150 = true ∧ statusAt t 25149 = true ∧ statusAt t 25150 = false)
    ∧ ({ rig 0 with params := { tp1 with hasStatus := false } } : State).params.hasStatus = false :=
  ⟨⟨rfl, fun _ => by decide, (fun _ he => by cases he), _, rfl, by decide +kernel⟩, rfl⟩

/-- No spurious wake, and one a microsecond too late. -/
theorem witness_WaitEndsAtTick :
    let s := { rig 0 with env := { quiet 0 with wakes := [some 24151] } }
    (s.armed = true ∧ ∀ x, (drawWake s).1 = some x → s.nextFire < s.now + x)
    ∧ ((rig 0).armed = true ∧ ∀ x, (drawWake (rig 0)).1 = some x → (rig 0).nextFire < (rig 0).now + x) := by
  refine ⟨⟨rfl, fun x hx => ?_⟩, rfl, fun x hx => ?_⟩
  · have : some 24151 = some x := hx
    cases this
    decide
  · have : none = some x := hx
    cases this

/-- A spurious wake at the very time of the TICK; and a WAIT with the timer unarmed. -/
theorem witness_WaitWithoutTick :
    let s := { rig 0 with env := { quiet 0 with wakes := [some 24150] } }
    ((drawWake s).1 = some 24150 ∧ (s.armed = true → s.now + 24150 ≤ s.nextFire))
    ∧ ((drawWake (cold 0)).1 = none ∧ (cold 0).armed = false) := ⟨⟨rfl, fun _ => by decide⟩, rfl, rfl⟩

/-- `L_MAX = 500` and its largest draw (V-SEQ-8); `L_MAX` infinite. -/
theorem witness_LatencyDrawInRange :
    (∀ n, ({ rig 0 with params := { tp1 with lMax := some 500 } } : State).params.lMax = some n → 500 ≤ n)
    ∧ ∀ n, ({ rig 0 with params := { tp1 with lMax := none } } : State).params.lMax = some n → 1000000 ≤ n :=
  ⟨fun _ h => by cases h; exact Nat.le_refl 500, fun _ h => by cases h⟩

/-- A block about to serve: the lines, the idle counter, the reading of C4 and the latency drawn. -/
def serving (raw cnt : Nat) (pre : Bool) (lat : Nat) : State :=
  { rig raw with
    idleCnt := cnt, params := { tp1 with lMax := some 24149, idleComparePre := pre }, env := { quiet raw with lats := [lat] } }

/-- The three ways to transmit: a key held, the last idle frame, and one more under the overruled reading. -/
theorem witness_ServiceTransmits :
    (let s := serving 0xD7FF 0 false 0;
      s.Timely ∧ s.params.bitsOk = true ∧ (0 : Nat) = (drawLatency s).1
      ∧ (0x005 : Snapshot) = snapshotOf s.params.channelMap (bankRead { s with now := s.now + 0 }) ∧ (0x005 : Snapshot) ≠ 0)
    ∧ (let s := serving 0xFFFF 2 false 500;
      s.Timely ∧ s.params.bitsOk = true ∧ (500 : Nat) = (drawLatency s).1
      ∧ (0x000 : Snapshot) = snapshotOf s.params.channelMap (bankRead { s with now := s.now + 500 })
      ∧ s.params.idleComparePre = false ∧ s.idleCnt + 1 < s.params.idleThreshold)
    ∧ (let s := serving 0xFFFF 3 true 0;
      s.Timely ∧ s.params.bitsOk = true ∧ (0 : Nat) = (drawLatency s).1
      ∧ (0x000 : Snapshot) = snapshotOf s.params.channelMap (bankRead { s with now := s.now + 0 })
      ∧ s.params.idleComparePre = true ∧ s.idleCnt < s.params.idleThreshold) :=
  ⟨⟨fun _ => by decide, by decide, rfl, by decide +kernel, by decide⟩,
    ⟨fun _ => by decide, by decide, rfl, by decide +kernel, rfl, by decide⟩,
    ⟨fun _ => by decide, by decide, rfl, by decide +kernel, rfl, by decide⟩⟩

/-- Both readings at their thresholds. -/
theorem witness_ServiceSuppresses :
    (let s := serving 0xFFFF 3 false 0;
      s.Timely ∧ (0 : Nat) = (drawLatency s).1
      ∧ snapshotOf s.params.channelMap (bankRead { s with now := s.now + 0 }) = 0
      ∧ s.params.idleComparePre = false ∧ s.params.idleThreshold ≤ s.idleCnt + 1)
    ∧ (let s := serving 0xFFFF 4 true 0;
      s.Timely ∧ (0 : Nat) = (drawLatency s).1
      ∧ snapshotOf s.params.channelMap (bankRead { s with now := s.now + 0 }) = 0
      ∧ s.params.idleComparePre = true ∧ s.params.idleThreshold ≤ s.idleCnt) :=
  ⟨⟨fun _ => by decide, rfl, by decide +kernel, rfl, by decide⟩, ⟨fun _ => by decide, rfl, by decide +kernel, rfl, by decide⟩⟩

theorem witness_TxframeEmitsPulseList :
    (stateAt .mark).Timely ∧ (stateAt .mark).plist.length = 26 := ⟨fun _ => by decide, by decide⟩

/-- A block at control position `c` at whose instant a TICK is due, with `DUE` and the order draw given. -/
def dueAt (c : Ctl) (due b : Bool) : State :=
  { stateAt c with now := 48300, due := due, env := { quiet 0xD7FF with orders := [b] } }

/-- Each clause: every control position, with `DUE` at either value (POLL), the first and the last slot (MARK, SPACE) and a TICK due
under both orders (SAMPLE, GATE, ENCODE). -/
theorem witness_StepRunsNextOperation (c : Ctl) (due b : Bool) :
    (Running (dueAt c due b) ∧ (dueAt c due b).Timely ∧ (dueAt c due b).ctl = c ∧ (dueAt c due b).params.wf = true
      ∧ (dueAt c due b).due = due ∧ (dueAt c due b).now = (dueAt c due b).nextFire
      ∧ (dueAt c due b).env.orders = b :: [] ∧ (dueAt .sample due b).armed = true)
    ∧ (({ dueAt c due b with slot := 0 } : State).plist[0]? = some ⟨2000, 1000⟩
      ∧ ({ dueAt c due b with slot := 25 } : State).plist[25]? = some ⟨100, 300⟩ ∧ (dueAt c due b).plist.length = 26) :=
  ⟨⟨⟨rfl, rfl, rfl⟩, fun _ => ⟨(by decide : 0 < tp1.tFrame), Nat.le_refl 48300⟩, rfl, (by decide : tp1.wf = true), rfl, rfl,
      rfl, rfl⟩,
    (by decide : (pulseList tp1 0x005)[0]? = some ⟨2000, 1000⟩), (by decide : (pulseList tp1 0x005)[25]? = some ⟨100, 300⟩),
    (by decide : (pulseList tp1 0x005).length = 26)⟩

theorem witness_StepRunsPresentedWord :
    (rig 0).env.resetIn = false ∧ (rig 0).halted = false ∧ decodeTableWord 8 1 = some .one ∧ decodeTableWord 8 3 = none := by
  decide

theorem witness_HaltedBlockHasNoStep :
    let s := { stateAt .initArm with phase := .halt, halted := true }
    s.halted = true ∧ s.env.resetIn = false := ⟨rfl, rfl⟩

theorem witness_AssertedResetGivesResetValues :
    ({ rig 0 with env := { quiet 0 with resetIn := true } } : State).env.resetIn = true := rfl

theorem witness_StepKeepsBlockInvariant (c : Ctl) : BlockInv (stateAt c) ∧ ∃ t, step (stateAt c) = .next t := by
  refine ⟨witness_blockInv c, ?_⟩
  cases c <;> exact ⟨_, rfl⟩

/-- Every control position, in its phase. -/
theorem witness_PhaseTransitionsOnly (c : Ctl) :
    BlockInv (stateAt c) ∧ Running (stateAt c) ∧ (∃ t, step (stateAt c) = .next t)
    ∧ [Phase.reset, .init, .wait, .service, .tx].map (fun ph => decide (∃ c ∈ [Ctl.boot, .initArm, .poll, .gate, .space],
        (stateAt c).phase = ph)) = [true, true, true, true, true] :=
  ⟨witness_blockInv c, witness_running c, (witness_StepKeepsBlockInvariant c).2, by decide +kernel⟩

/-- A halted block under reset. -/
theorem witness_PhaseTransitionsOnly_halt :
    let s := { stateAt .initArm with phase := .halt, halted := true, env := { quiet 0 with resetIn := true } }
    BlockInv s ∧ s.phase = .halt ∧ ∃ t, step s = .next t := by
  refine ⟨?_, rfl, _, rfl⟩
  constructor <;> first | decide +kernel | (unfold AllBy; decide +kernel)

theorem witness_PhaseTransitionsOnly_lastSlot :
    BlockInv lastSlot ∧ Running lastSlot ∧ ∃ t, step lastSlot = .next t ∧ t.phase = .wait ∧ t.slot = 26 :=
  ⟨witness_blockInv_lastSlot, ⟨rfl, rfl, rfl⟩, _, rfl, by decide +kernel⟩

theorem witness_RunningBlockNeverStuck (c : Ctl) :
    (BlockInv (stateAt c) ∧ Running (stateAt c) ∧ (stateAt c).params.wf = true)
    ∧ step { stateAt .initArm with phase := .halt, halted := true } = .fault .initFail :=
  ⟨⟨witness_blockInv c, witness_running c, by cases c <;> decide +kernel⟩, rfl⟩

theorem witness_LineAtRestOutsideMarks : BlockInv (stateAt .mark) ∧ (stateAt .mark).ctl ≠ .space :=
  ⟨witness_blockInv .mark, by decide⟩

theorem witness_TxframeRunsAsMarkSpaceSteps :
    let s := { stateAt .mark with slot := 0 }
    Running s ∧ s.ctl = .mark ∧ s.phase = .tx ∧ s.slot = 0 ∧ s.plist.length = 26 :=
  ⟨⟨rfl, rfl, rfl⟩, rfl, rfl, rfl, by decide⟩

theorem witness_ServiceRunsAsItsSteps :
    let s := { stateAt .poll with due := true }
    Running s ∧ s.ctl = .poll ∧ s.due = true := ⟨⟨rfl, rfl, rfl⟩, rfl, rfl⟩

/-- Both answers of the timer. -/
theorem witness_InitRunsAsItsSteps :
    (Running (cold 0) ∧ (cold 0).ctl = .boot ∧ (cold 0).params.wf = true ∧ (cold 0).env.armOk = true)
    ∧ ({ cold 0 with env := { quiet 0 with armOk := false } } : State).env.armOk = false :=
  ⟨⟨⟨rfl, rfl, rfl⟩, rfl, by decide, rfl⟩, rfl⟩

theorem witness_ParametersNeverMutated (c : Ctl) :
    (∃ t, exec .carcfg (cold 0) = .next t) ∧ ∃ t, step (stateAt c) = .next t :=
  ⟨⟨_, rfl⟩, (witness_StepKeepsBlockInvariant c).2⟩

/-- Each owner does write: GATE, SAMPLE, ENCODE, TXFRAME, CARCFG, ARM, HALT, POLL, SETLVL, SPACE, WAIT, TICK, STATUS. -/
theorem witness_ElementsWrittenByOwnersOnly :
    onNext (exec .gate (rig 0)) (fun t => t.idleCnt != (rig 0).idleCnt) = true
    ∧ onNext (exec .sample (rig 0)) (fun t => t.snap != (rig 0).snap) = true
    ∧ onNext (exec .encode (rig 0)) (fun t => t.txw != (rig 0).txw) = true
    ∧ onNext (exec .txframe (rig 0)) (fun t => t.slot != (rig 0).slot) = true
    ∧ onNext (exec .carcfg (cold 0)) (fun t => t.carWrap != (cold 0).carWrap) = true
    ∧ onNext (exec .arm (cold 0)) (fun t => t.armed != (cold 0).armed) = true
    ∧ onNext (exec .halt (rig 0)) (fun t => t.halted != (rig 0).halted) = true
    ∧ onNext (exec .poll { rig 0 with due := true }) (fun t => !t.due) = true
    ∧ onNext (exec (.setlvl .on) (rig 0)) (fun t => t.carLevel != 0 && t.trace != (rig 0).trace) = true
    ∧ onNext (exec (.space 100) (rig 0)) (fun t => t.seg != (rig 0).seg && t.now != (rig 0).now) = true
    ∧ onNext (exec .wait { rig 0 with phase := .service }) (fun t => t.phase == .wait) = true
    ∧ onNext (exec .tick { rig 0 with now := 48300 })
        (fun t => t.due && t.nextFire != (rig 0).nextFire && t.ticks != (rig 0).ticks) = true
    ∧ onNext (exec .status { rig 0 with statusOut := true }) (fun t => !t.statusOut) = true := by decide +kernel

/-- The largest latencies: a service that transmits with `LAT = T_GAP - 1` and one that suppresses with `LAT = T_FRAME - 1`. -/
theorem witness_NoOverrunServiceMeetsNextTick :
    (let s := serving 0xD7FF 0 false 11149;
      s.params.wf = true ∧ s.armed = true ∧ s.nextFire = s.now + s.params.tFrame ∧ s.due = false
      ∧ ∃ t, exec .service s = .next t ∧ t.ret = true ∧ (drawLatency s).1 < s.params.tGap)
    ∧ (let s := serving 0xFFFF 3 false 24149;
      s.params.wf = true ∧ s.armed = true ∧ s.nextFire = s.now + s.params.tFrame ∧ s.due = false
      ∧ ∃ t, exec .service s = .next t ∧ t.ret = false ∧ (drawLatency s).1 < s.params.tFrame) :=
  ⟨⟨by decide, rfl, rfl, rfl, _, rfl, by decide +kernel, by decide⟩, by decide, rfl, rfl, rfl, _, rfl, by decide +kernel, by decide⟩

end Sys2Proof.Tests
end

section
/-! SUPPORT. All one step of the block can do, said once: reset, the run of a presented word, or one move of the main context. -/

namespace Sys2Proof.Machine

open Sys2Proof

/-! ### The main context's moves -/

/-- All one step of the main context can do (R125 to R132), by control position and branch: from `s`, the state after it. -/
inductive MainMove (s : State) : State → Prop
  /-- INIT begins: CARCFG derives the carrier. -/
  | carcfg (hc : s.ctl = .boot) (hw : s.params.wf = true) :
      MainMove s { deriveCarrier { s with phase := .init } with ctl := .initLevel }
  /-- INIT: SETLVL 0. -/
  | darken (hc : s.ctl = .initLevel) : MainMove s { setLevel 0 s with ctl := .initArm }
  /-- INIT: ARM succeeds. -/
  | arm (hc : s.ctl = .initArm) (ha : s.env.armOk = true) :
      MainMove s { s with armed := true, nextFire := s.now + s.params.tFrame, ret := true, ctl := .initStatus }
  /-- INIT: ARM fails, INIT_FAIL is taken. -/
  | fail (hc : s.ctl = .initArm) (ha : s.env.armOk = false) : MainMove s (enterHalt { s with ret := false })
  /-- INIT: STATUS, then WAIT. -/
  | status (hc : s.ctl = .initStatus) : MainMove s (settleTick (toWait (statusPulse s)))
  /-- WAIT ends, or sleeps on. -/
  | wake (hc : s.ctl = .wait) : MainMove s (settleTick (sleepUntilWoken s))
  /-- POLL finds `DUE = 1`: SERVICE begins. -/
  | serve (hc : s.ctl = .poll) (hd : s.due = true) :
      MainMove s { enterService { s with due := false, ret := true } with ctl := .sample }
  /-- POLL finds `DUE = 0`. -/
  | pollNothing (hc : s.ctl = .poll) (hd : s.due = false) :
      MainMove s (settleTick (toWait { s with due := false, ret := false }))
  /-- SERVICE: SAMPLE. -/
  | sample (hc : s.ctl = .sample) : MainMove s (settleTick { sampleInputs s with ctl := .gate })
  /-- SERVICE: GATE says transmit. -/
  | pass (hc : s.ctl = .gate) (hr : (idleGate s).ret = true) : MainMove s (settleTick { idleGate s with ctl := .encode })
  /-- SERVICE: GATE says suppress. -/
  | suppress (hc : s.ctl = .gate) (hr : (idleGate s).ret = false) : MainMove s (settleTick (toWait (idleGate s)))
  /-- SERVICE: ENCODE, and TXFRAME begins. -/
  | encode (hc : s.ctl = .encode) : MainMove s (settleTick { startFrame (encodeSnapshot s) with ctl := .mark })
  /-- TXFRAME: the MARK of a slot. -/
  | mark (p : Pulse) (hc : s.ctl = .mark) (hp : s.plist[s.slot]? = some p) :
      MainMove s { markFor p.mark s with ctl := .space }
  /-- TXFRAME: the SPACE of a slot with a slot after it. -/
  | space (p : Pulse) (hc : s.ctl = .space) (hp : s.plist[s.slot]? = some p) (hm : s.slot + 1 < s.plist.length) :
      MainMove s { nextSlot (spaceFor p.space s) with ctl := .mark }
  /-- TXFRAME: the last SPACE ends it, and SERVICE with it. -/
  | lastSpace (p : Pulse) (hc : s.ctl = .space) (hp : s.plist[s.slot]? = some p) (hm : ¬ s.slot + 1 < s.plist.length) :
      MainMove s (settleTick (toWait (nextSlot (spaceFor p.space s))))
  /-- TXFRAME with no pair left. -/
  | noPair (hc : s.ctl = .mark ∨ s.ctl = .space) (hp : s.plist[s.slot]? = none) : MainMove s (toWait s)

/-- Past the start of INIT, where a position's operation answers `next u` the main context goes on as `afterOp` says. -/
theorem afterOp_of_mainStep {s t u : State} {c : Ctl} (i : Instr) (hc : s.ctl = c) (hb : c ≠ .boot) (hi : nextOp s = some i)
    (he : exec i s = .next u) (h : mainStep s = .next t) : t = afterOp c u := by
  subst hc
  simp only [mainStep, hi, beforeOp, if_neg hb, he, Host.Outcome.next.injEq] at h
  exact h.symm

/-- TXFRAME ends where no pair is left. -/
theorem toWait_of_mainStep {s t : State} (hi : nextOp s = none) (h : mainStep s = .next t) : t = toWait s := by
  simp only [mainStep, hi, Host.Outcome.next.injEq] at h
  exact h.symm

/-- A step of the main context is one of its moves. -/
theorem mainMove_of_mainStep {s t : State} (h : mainStep s = .next t) : MainMove s t := by
  cases hc : s.ctl with
  | boot =>
    by_cases hw : s.params.wf = true
    · simp only [mainStep, nextOp, beforeOp, afterOp, exec, execCarcfg, hc, hw, if_true, Host.Outcome.next.injEq] at h
      subst h; exact .carcfg hc hw
    · simp [mainStep, nextOp, beforeOp, exec, execCarcfg, hc, hw] at h
  | initLevel =>
    obtain rfl := afterOp_of_mainStep (.setlvl .off) hc (by decide) (by simp [nextOp, hc]) rfl h
    exact .darken hc
  | initArm =>
    obtain rfl := afterOp_of_mainStep .arm hc (by decide) (by simp [nextOp, hc]) rfl h
    rcases armTimer_cases s with ⟨ha, e⟩ | ⟨ha, e⟩ <;> rw [e]
    · exact .arm hc ha
    · exact .fail hc ha
  | initStatus =>
    obtain rfl := afterOp_of_mainStep .status hc (by decide) (by simp [nextOp, hc]) rfl h
    exact .status hc
  | wait =>
    obtain rfl := afterOp_of_mainStep .wait hc (by decide) (by simp [nextOp, hc]) rfl h
    exact .wake hc
  | poll =>
    obtain rfl := afterOp_of_mainStep .poll hc (by decide) (by simp [nextOp, hc]) rfl h
    rw [pollDue_eq]
    cases hd : s.due with
    | true => exact .serve hc hd
    | false => exact .pollNothing hc hd
  | sample =>
    obtain rfl := afterOp_of_mainStep .sample hc (by decide) (by simp [nextOp, hc]) rfl h
    exact .sample hc
  | gate =>
    obtain rfl := afterOp_of_mainStep .gate hc (by decide) (by simp [nextOp, hc]) rfl h
    cases hr : (idleGate s).ret with
    | true => rw [afterOp, if_pos hr]; exact .pass hc hr
    | false => rw [afterOp, if_neg (by rw [hr]; decide)]; exact .suppress hc hr
  | encode =>
    obtain rfl := afterOp_of_mainStep .encode hc (by decide) (by simp [nextOp, hc]) rfl h
    exact .encode hc
  | mark =>
    cases hp : s.plist[s.slot]? with
    | none =>
      obtain rfl := toWait_of_mainStep (by simp [nextOp, hc, hp]) h
      exact .noPair (.inl hc) hp
    | some p =>
      obtain rfl := afterOp_of_mainStep (.mark p.mark) hc (by decide) (by simp [nextOp, hc, hp]) rfl h
      exact .mark p hc hp
  | space =>
    cases hp : s.plist[s.slot]? with
    | none =>
      obtain rfl := toWait_of_mainStep (by simp [nextOp, hc, hp]) h
      exact .noPair (.inr hc) hp
    | some p =>
      obtain rfl := afterOp_of_mainStep (.space p.space) hc (by decide) (by simp [nextOp, hc, hp]) rfl h
      rw [afterOp, spaceFor_slot, spaceFor_plist]
      split
      · exact .space p hc hp ‹_›
      · exact .lastSpace p hc hp ‹_›

/-- All one step can do: reset (R165), the run of a presented word (log 15), or a move of the main context (R132). -/
theorem step_cases {s t : State} (h : step s = .next t) :
    (s.env.resetIn = true ∧ t = assertReset s)
    ∨ (s.env.resetIn = false ∧ s.halted = false ∧
      ((∃ nbits w i, s.port = some (nbits, w) ∧ decodeTableWord nbits w = some i ∧ exec i { s with port := none } = .next t)
        ∨ (s.port = none ∧ MainMove s t))) := by
  unfold step at h
  split at h
  · rename_i hr; cases h; exact .inl ⟨hr, rfl⟩
  · rename_i hr
    refine .inr ⟨by simpa using hr, ?_⟩
    unfold runStep at h
    split at h
    · cases h
    · rename_i hh
      refine ⟨by simpa using hh, ?_⟩
      split at h
      · rename_i nbits w hp
        unfold runWord at h
        split at h
        · rename_i i hi; exact .inl ⟨nbits, w, i, hp, hi, h⟩
        · cases h
      · rename_i hp; exact .inr ⟨hp, mainMove_of_mainStep h⟩

end Sys2Proof.Machine
end

section
/-! SUPPORT. What keeps the invariant of the block: one rule per write, and that time passing keeps it. -/

namespace Sys2Proof.Machine

open Sys2Proof

/-! ### Frames of the feedback pulse and of a stretch of time -/

/-- STATUS writes the feedback line and its history, and what a busy wait may change (R126). -/
theorem statusPulse_frame (s : State) :
    statusPulse s = { s with
      statusOut := (statusPulse s).statusOut, statusLog := (statusPulse s).statusLog
      now := (statusPulse s).now, due := (statusPulse s).due, nextFire := (statusPulse s).nextFire
      ticks := (statusPulse s).ticks, ctl := (statusPulse s).ctl, env := (statusPulse s).env
      drawIx := (statusPulse s).drawIx } := by
  by_cases h : s.params.hasStatus = true
  · rw [statusPulse_some s h]
    unfold statusWrite
    split <;> ext1 <;> simp
  · rw [statusPulse_none s (by simpa using h)]

/-- A control position that time passing would lose may be written before it or after it. -/
theorem Elapsed.setCtl {d : Nat} {s t : State} (h : Elapsed d s t) (c : Ctl) :
    Elapsed d { s with ctl := c } { t with ctl := c } := by
  obtain ⟨hn, hr, hf, -⟩ := h
  exact ⟨hn, hr, by rw [hf], .inl rfl⟩

/-- Time passes in the same way whatever the line's half, level and history are. -/
theorem Elapsed.forgetLine {d lv : Nat} {sg : Seg} {tr : List (Nat × Nat)} {s t : State}
    (h : Elapsed d { s with seg := sg, carLevel := lv, trace := tr } t) :
    Elapsed d s { t with seg := s.seg, carLevel := s.carLevel, trace := s.trace } := by
  obtain ⟨hn, hr, hf, hc⟩ := h
  exact ⟨hn, hr, by rw [hf], hc⟩

/-! ### What the invariant says of a state -/

/-- A well-formed parameter set has a positive frame period (R4). -/
theorem tFrame_pos_of_wf {p : Params} (h : p.wf = true) : 0 < p.tFrame := by
  simp only [Params.wf, Params.rangesOk, Bool.and_eq_true, decide_eq_true_eq] at h
  simp only [Params.tFrame]
  omega

section
variable {s : State} (h : BlockInv s)
include h

/-- An armed block is past the start of INIT. -/
theorem BlockInv.ne_boot (ha : s.armed = true) : s.ctl ≠ .boot := fun hc => by
  have := h.armed_iff
  rw [hc, ha] at this
  cases this

/-- The timer is never late. -/
theorem BlockInv.isTimely : s.Timely := fun ha =>
  ⟨tFrame_pos_of_wf (h.configured (h.ne_boot ha)).1, h.timely ha⟩

/-- The line is dark outside marks (R118). -/
theorem BlockInv.dark (hc : s.ctl ≠ .space) : s.carLevel = 0 := h.level_at_rest.resolve_right fun hs => hc hs.1

/-- The timer of a block past ARM is armed. -/
theorem BlockInv.armed_at {c : Ctl} (hc : s.ctl = c) (hb : beforeArm c = false) : s.armed = true := by
  rw [h.armed_iff, hc, hb]; rfl

/-- The phase of a block out of HALT is its control position's. -/
theorem BlockInv.phase_at {c : Ctl} {ph : Phase} (hc : s.ctl = c) (hh : s.halted = false) (hp : phaseOf c = ph) :
    s.phase = ph := by
  rw [h.phase_eq hh, hc, hp]

/-- A block in WAIT is at WAIT or POLL. -/
theorem BlockInv.ctl_of_wait (hp : s.phase = .wait) : s.halted = false ∧ (s.ctl = .wait ∨ s.ctl = .poll) := by
  have hh : s.halted = false := by
    rw [Bool.eq_false_iff, Ne, h.halted_iff, hp]
    decide
  have hph := h.phase_eq hh
  rw [hp] at hph
  refine ⟨hh, ?_⟩
  cases hc : s.ctl <;> simp [hc, phaseOf] at hph ⊢

/-- In TXFRAME's loop a pair is left to emit (R19, R130). -/
theorem BlockInv.pair_left (hc : s.ctl = .mark ∨ s.ctl = .space) : s.plist[s.slot]? ≠ none := by
  have hlt := h.slot_lt hc
  rw [Ne, List.getElem?_eq_none_iff, h.plist_length]
  omega

/-! ### Writes that keep the invariant -/

/-- Time, the timer and the draws may move on while the timer is not late and nothing happens to an unarmed one. -/
theorem BlockInv.reclock (n nf ix : Nat) (d : Bool) (tk : List Nat) (e : Env) (hn : s.now ≤ n)
    (hnf : s.armed = true → n ≤ nf) (hq : s.armed = false → d = s.due ∧ tk = s.ticks) :
    BlockInv { s with now := n, nextFire := nf, due := d, ticks := tk, env := e, drawIx := ix } :=
  { h with
    trace_past := fun e he => Nat.le_trans (h.trace_past e he) hn
    timely := hnf
    unarmed_quiet := fun ha => by
      obtain ⟨rfl, rfl⟩ := hq ha
      exact h.unarmed_quiet ha }

/-- The clock and the timer may be as a timer that ran left them (R82). -/
theorem BlockInv.ran {t : State} (hr : TimerRan s t) (hn : s.now ≤ t.now) (e : Env) (ix : Nat) :
    BlockInv { s with
      now := t.now, nextFire := t.nextFire, due := t.due, ticks := t.ticks, env := e, drawIx := ix } := by
  obtain ⟨n, hticks, -, hdue, hunarmed, harmed⟩ := hr
  refine h.reclock _ _ _ _ _ _ hn (fun ha => (harmed ha).1) fun ha => ?_
  rw [hdue, hticks, hunarmed ha]
  simp

/-- The main context may go on to a position that the timer, the level, `SLOT`, GATE's answer and the pulse list allow. -/
theorem BlockInv.goto (c : Ctl) {ph : Phase} (hp : ph = phaseOf c) (hh : s.halted = false) (hb : s.ctl ≠ .boot)
    (ha : s.armed = !beforeArm c) (hl : s.carLevel = 0) (hr : c = .encode ∨ c = .mark ∨ c = .space → s.ret = true)
    (hs : c = .mark ∨ c = .space → s.slot < 26 ∧ s.txw = frameWord s.snap ∧ s.plist = pulseList s.params s.snap) :
    BlockInv { s with phase := ph, ctl := c } :=
  { h with
    slot_lt := fun hc => (hs hc).1
    halted_iff := by subst hp; cases c <;> simp [hh, phaseOf]
    phase_eq := fun _ => hp
    halted_unarmed := fun hh' => by rw [hh] at hh'; cases hh'
    level_at_rest := .inl hl
    armed_iff := ha
    configured := fun _ => h.configured hb
    gate_passed := hr
    frame_held := fun hc => (hs hc).2 }

/-- The main context may go back to WAIT once the timer is armed and the line dark. -/
theorem BlockInv.toWait (hh : s.halted = false) (ha : s.armed = true) (hl : s.carLevel = 0) : BlockInv (toWait s) :=
  h.goto .wait rfl hh (h.ne_boot ha) ha hl (by simp) (by simp)

/-- A level may be written that is 0, or `CAR_ON` before a SPACE (R13, R118). -/
theorem BlockInv.setLevel {v : Nat} (hv : v = 0 ∨ (s.ctl = .space ∧ v = s.carOn)) : BlockInv (setLevel v s) :=
  { h with
    level_at_rest := hv
    level_traced := by simp
    trace_past := fun e he => by
      rcases List.mem_append.mp he with he | he
      · exact h.trace_past e he
      · rw [List.mem_singleton.mp he]; exact Nat.le_refl _ }

/-- Nothing hangs on which half of a slot `SEG` names. -/
theorem BlockInv.setSeg (sg : Seg) : BlockInv { s with seg := sg } := { h with }

/-- `SLOT` may be written within its range (R19). -/
theorem BlockInv.setSlot {k : Nat} (hk : k ≤ 26) (hc : s.ctl = .mark ∨ s.ctl = .space → k < 26) :
    BlockInv { s with slot := k } :=
  { h with slot_le := hk, slot_lt := hc }

/-! ### Time keeps the invariant -/

/-- A block in WAIT may wake. -/
theorem BlockInv.wake (hp : s.phase = .wait) : BlockInv { s with ctl := .poll } := by
  obtain ⟨hh, hc⟩ := h.ctl_of_wait hp
  have ha : s.armed = true := by rcases hc with hc | hc <;> exact h.armed_at hc rfl
  have hl : s.carLevel = 0 := h.dark (by rcases hc with hc | hc <;> simp [hc])
  exact h.goto .poll hp hh (h.ne_boot ha) ha hl (by simp) (by simp)

/-- However long time passes, the invariant is kept: the timer alone moves, and at most a sleeping main context wakes. -/
theorem BlockInv.elapsed {d : Nat} {t : State} (he : Elapsed d s t) : BlockInv t := by
  obtain ⟨hn, hr, hf, hctl⟩ := he
  have hle : s.now ≤ t.now := by omega
  rw [hf]
  rcases hctl with hc | ⟨hp, hc⟩ <;> rw [hc]
  · exact h.ran hr hle _ _
  · exact (h.wake hp).ran hr hle _ _

/-- A busy wait keeps the invariant, and so does the point between two operations, a wait of no length (R115, R48). -/
theorem BlockInv.waitFor (d : Nat) : BlockInv (waitFor d s) := h.elapsed (waitFor_elapsed d s h.isTimely)

theorem BlockInv.settleTick : BlockInv (settleTick s) := h.waitFor 0

/-- A SPACE leaves the line dark (R113). -/
theorem BlockInv.spaceFor (d : Nat) : BlockInv (spaceFor d s) := ((h.setSeg .spaceSeg).setLevel (.inl rfl)).waitFor d

/-- A PULSE ends with the line dark, wherever the main context is (R114). -/
theorem BlockInv.pulseFor (p : Pulse) : BlockInv (pulseFor p s) := by
  have hu := h.elapsed (pulseFor_elapsed p s h.isTimely).forgetLine
  exact { hu with
    level_at_rest := .inl (pulseFor_carLevel p s)
    level_traced := by simp
    trace_past := fun e he => by
      rw [pulseFor_trace] at he
      rcases List.mem_append.mp he with he | he
      · exact hu.trace_past e he
      · simp only [List.mem_cons, List.not_mem_nil, or_false] at he
        rcases he with rfl | rfl
        · simp only [pulseFor_now]; omega
        · simp only [pulseFor_now]; omega }

/-- The wire items keep the invariant: no register of encoder or sequencer is theirs (log 14). -/
theorem BlockInv.emitPulses (ps : List Pulse) : BlockInv (emitPulses ps s) := by
  induction ps generalizing s with
  | nil => exact h
  | cons p ps ih => exact ih (h.pulseFor p)

/-- The feedback line is inactive again after STATUS (R126). -/
theorem BlockInv.statusPulse : BlockInv (statusPulse s) := by
  cases hs : s.params.hasStatus with
  | false => rw [statusPulse_none s hs]; exact h
  | true =>
    refine BlockInv.elapsed ?_ (statusPulse_elapsed s hs h.isTimely)
    exact { h with status_off := rfl }

end

end Sys2Proof.Machine
end

section
/-! PROOF. The invariant of the block (O48, O49, O50): it holds right after reset, and each move of the main context, each presented
word and reset keep it. -/

namespace Sys2Proof.Machine

open Sys2Proof

/-! ### A presented word is an item of the frame format -/

/-- The decoder answers items only (R72). -/
theorem decodeRun_item {slot : Nat} {syms : List SlotSym} {i : Instr} (h : decodeRun slot syms = .ok i) :
    (encode i).isSome = true := by
  unfold decodeRun at h
  split at h
  case h_1 => cases h
  case h_2 => cases h; rfl
  case h_3 => split at h <;> cases h; rfl
  case h_4 => cases h
  case h_5 => cases h; rfl
  case h_6 => cases h
  case h_7 => split at h <;> cases h; rfl
  case h_8 =>
    split at h
    · cases h
    · split at h <;> cases h <;> rfl
  case h_9 => cases h

theorem decodeRun_toOption_item {slot : Nat} {syms : List SlotSym} {i : Instr}
    (h : (decodeRun slot syms).toOption = some i) : (encode i).isSome = true := by
  cases hd : decodeRun slot syms with
  | error r => rw [hd] at h; cases h
  | ok j => rw [hd] at h; cases h; exact decodeRun_item hd

/-- A word stands for an item or for nothing (log 15). -/
theorem decodeTableWord_item {nbits w : Nat} {i : Instr} (h : decodeTableWord nbits w = some i) :
    (encode i).isSome = true := by
  simp only [decodeTableWord] at h
  split_ifs at h <;> exact decodeRun_toOption_item h

/-- An item's meaning is a run of pulses (R68). -/
theorem exec_item {i : Instr} (h : (encode i).isSome = true) (s : State) :
    ∃ ps, exec i s = .next (emitPulses ps s) := by
  cases i with
  | frame _ | txw _ | hdr | zero | one | id => exact ⟨_, rfl⟩
  | _ => cases h

/-! ### Every step keeps the invariant -/

/-- The invariant holds right after a reset of any parameter set and environment (R29). -/
theorem blockInv_afterReset (p : Params) (env : Env) (epoch drawIx : Nat) : BlockInv (State.afterReset p env epoch drawIx) where
  plist_length := List.length_replicate
  slot_le := Nat.zero_le _
  slot_lt _ := by simp [State.afterReset]
  halted_iff := by simp [State.afterReset]
  phase_eq _ := rfl
  halted_unarmed _ := rfl
  level_at_rest := .inl rfl
  level_traced := rfl
  trace_past := fun e he => by cases he
  armed_iff := rfl
  timely h := by cases h
  unarmed_quiet _ := ⟨rfl, rfl⟩
  status_off := rfl
  configured h := absurd rfl h
  gate_passed h := by simp [State.afterReset] at h
  frame_held h := by simp [State.afterReset] at h

theorem pulseList_length (p : Params) (v : Snapshot) : (pulseList p v).length = 26 := by
  simp [pulseList, Laws.frameSyms_length]

section
variable {s : State} (h : BlockInv s)
include h

/-- ARM failed: HALT is entered with the timer unarmed (R131). -/
theorem BlockInv.fail (hc : s.ctl = .initArm) : BlockInv (enterHalt { s with ret := false }) :=
  { h with
    halted_iff := by simp
    phase_eq := by simp
    halted_unarmed := fun _ => by rw [enterHalt_ctl, hc]; rfl
    gate_passed := by simp [hc] }

/-- POLL keeps the invariant whatever it found (R128). -/
theorem BlockInv.polled (b : Bool) (hc : s.ctl = .poll) : BlockInv { s with due := false, ret := b } :=
  { h with
    unarmed_quiet := fun hu => ⟨rfl, (h.unarmed_quiet hu).2⟩
    gate_passed := by simp [hc] }

/-- GATE keeps the invariant whatever it answers (R95). -/
theorem BlockInv.idleGate (hc : s.ctl = .gate) : BlockInv (idleGate s) := { h with gate_passed := by simp [hc] }

variable (hh : s.halted = false)
include hh

/-- CARCFG derives the constants of a well-formed set (R110). -/
theorem BlockInv.carcfg (hc : s.ctl = .boot) (hw : s.params.wf = true) :
    BlockInv { deriveCarrier { s with phase := .init } with ctl := .initLevel } :=
  { h with
    slot_lt := by simp
    halted_iff := by simp [hh]
    phase_eq := fun _ => rfl
    halted_unarmed := fun _ => rfl
    level_at_rest := .inl (h.dark (by simp [hc]))
    armed_iff := by simpa [hc, beforeArm] using h.armed_iff
    configured := fun _ => ⟨hw, rfl, rfl⟩
    gate_passed := by simp
    frame_held := by simp }

theorem BlockInv.darken (hc : s.ctl = .initLevel) : BlockInv { Machine.setLevel 0 s with ctl := .initArm } :=
  (h.setLevel (.inl rfl)).goto .initArm (h.phase_at hc hh rfl) hh (by simp [hc])
    (by simpa [hc, beforeArm] using h.armed_iff) rfl (by simp) (by simp)

/-- ARM's first firing is a period away (R80). -/
theorem BlockInv.arm (hc : s.ctl = .initArm) :
    BlockInv { s with armed := true, nextFire := s.now + s.params.tFrame, ret := true, ctl := .initStatus } :=
  { h with
    slot_lt := by simp
    phase_eq := fun _ => h.phase_at hc hh rfl
    halted_unarmed := by simp [hh]
    level_at_rest := .inl (h.dark (by simp [hc]))
    armed_iff := rfl
    timely := fun _ => Nat.le_add_right _ _
    unarmed_quiet := by simp
    configured := fun _ => h.configured (by simp [hc])
    gate_passed := by simp
    frame_held := by simp }

/-- WAIT: a wake or a TICK comes when the timer is still on time. -/
theorem BlockInv.sleepUntilWoken (hc : s.ctl = .wait) : BlockInv (sleepUntilWoken s) := by
  have ha : s.armed = true := h.armed_at hc rfl
  have hw : BlockInv { s with phase := .wait, ctl := .poll } :=
    h.goto .poll rfl hh (by simp [hc]) ha (h.dark (by simp [hc])) (by simp) (by simp)
  rcases sleepUntilWoken_cases s with ⟨x, -, hx, e⟩ | ⟨-, -, e⟩ | ⟨hu, -⟩
  · rw [e, drawWake_frame]
    exact hw.reclock _ _ _ _ _ _ (Nat.le_add_right _ _) hx (fun _ => ⟨rfl, rfl⟩)
  · rw [e, drawWake_frame]
    exact hw.reclock _ _ _ _ _ _ (h.timely ha) (fun _ => Nat.le_add_right _ _) (fun hu => by simp [ha] at hu)
  · simp [ha] at hu

/-- SERVICE begins: the latency passes in its phase (R129). -/
theorem BlockInv.serve (hc : s.ctl = .poll) :
    BlockInv { enterService { s with due := false, ret := true } with ctl := .sample } := by
  have hp := h.polled true hc
  refine BlockInv.elapsed ?_ ((enterService_elapsed _ hp.isTimely).setCtl .sample)
  have hg := hp.goto .sample (ph := .service) rfl hh (by simp [hc]) (h.armed_at hc rfl) (h.dark (by simp [hc]))
    (by simp) (by simp)
  exact { hg with }

theorem BlockInv.sample (hc : s.ctl = .sample) : BlockInv { sampleInputs s with ctl := .gate } := by
  have hs : BlockInv (sampleInputs s) := { h with frame_held := by simp [hc] }
  exact hs.goto .gate (h.phase_at hc hh rfl) hh (by simp [hc]) (h.armed_at hc rfl) (h.dark (by simp [hc]))
    (by simp) (by simp)

theorem BlockInv.pass (hc : s.ctl = .gate) (hr : (Machine.idleGate s).ret = true) :
    BlockInv { Machine.idleGate s with ctl := .encode } :=
  (h.idleGate hc).goto .encode (h.phase_at hc hh rfl) hh (by simp [hc]) (h.armed_at hc rfl) (h.dark (by simp [hc]))
    (fun _ => hr) (by simp)

/-- TXFRAME starts with the frame of the snapshot, as GATE allowed (R100, R130). -/
theorem BlockInv.encode (hc : s.ctl = .encode) : BlockInv { startFrame (encodeSnapshot s) with ctl := .mark } := by
  have he : BlockInv (encodeSnapshot s) := { h with
    plist_length := pulseList_length _ _
    frame_held := by simp [hc] }
  have hs : BlockInv { encodeSnapshot s with slot := 0 } := he.setSlot (by omega) (by simp)
  exact hs.goto .mark (ph := .tx) rfl hh (by simp [hc]) (h.armed_at hc rfl) (h.dark (by simp [hc]))
    (fun _ => h.gate_passed (.inl hc)) (fun _ => ⟨by simp, rfl, rfl⟩)

/-- The MARK of a slot: between it and its SPACE the level is `CAR_ON` (R112). -/
theorem BlockInv.mark (d : Nat) (hc : s.ctl = .mark) : BlockInv { markFor d s with ctl := .space } := by
  have hg := h.goto .space (h.phase_at hc hh rfl) hh (by simp [hc]) (h.armed_at hc rfl) (h.dark (by simp [hc]))
    (fun _ => h.gate_passed (.inr (.inl hc))) (fun _ => ⟨h.slot_lt (.inl hc), h.frame_held (.inl hc)⟩)
  have hl := (hg.setSeg .markSeg).setLevel (v := s.carOn) (.inr ⟨rfl, rfl⟩)
  exact hl.elapsed ((markFor_elapsed d s h.isTimely).setCtl .space)

/-- A SPACE with a slot after it (R113, R130). -/
theorem BlockInv.space (d : Nat) (hc : s.ctl = .space) (hm : s.slot + 1 < s.plist.length) :
    BlockInv { nextSlot (Machine.spaceFor d s) with ctl := .mark } := by
  have hx := h.frame_held (.inr hc)
  rw [h.plist_length] at hm
  have hsp : BlockInv { Machine.spaceFor d s with ctl := .mark } :=
    BlockInv.elapsed (s := { s with seg := .spaceSeg, carLevel := 0, trace := s.trace ++ [(s.now, 0)], ctl := .mark })
      (((h.setSeg .spaceSeg).setLevel (.inl rfl)).goto .mark (h.phase_at hc hh rfl) hh (by simp [hc]) (h.armed_at hc rfl) rfl
        (fun _ => h.gate_passed (.inr (.inr hc))) (fun _ => ⟨h.slot_lt (.inr hc), hx⟩))
      ((spaceFor_elapsed d s h.isTimely).setCtl .mark)
  have hk : BlockInv { Machine.spaceFor d s with slot := (Machine.spaceFor d s).slot + 1, ctl := .mark } :=
    hsp.setSlot (by rw [spaceFor_slot]; omega) (fun _ => by rw [spaceFor_slot]; omega)
  exact hk

/-- The last SPACE: TXFRAME ends, and the main context is back in WAIT (R129, R130). -/
theorem BlockInv.lastSpace (d : Nat) (hc : s.ctl = .space) : BlockInv (Machine.toWait (nextSlot (Machine.spaceFor d s))) := by
  have hw : BlockInv (Machine.toWait (Machine.spaceFor d s)) :=
    (h.spaceFor d).toWait (by simpa using hh) (by simpa using h.armed_at hc rfl) (by simp [Machine.spaceFor])
  have hlt := h.slot_lt (.inr hc)
  exact hw.setSlot (k := (Machine.spaceFor d s).slot + 1) (by rw [spaceFor_slot]; omega) (by simp)

/-- Every move of the main context keeps the invariant. -/
theorem BlockInv.move {t : State} (hm : MainMove s t) : BlockInv t := by
  cases hm with
  | carcfg hc hw => exact h.carcfg hh hc hw
  | darken hc => exact h.darken hh hc
  | arm hc _ => exact h.arm hh hc
  | fail hc _ => exact h.fail hc
  | status hc =>
    have ha := h.armed_at hc rfl
    refine (h.statusPulse.toWait ?_ ?_ ?_).settleTick <;> rw [statusPulse_frame]
    exacts [hh, ha, h.dark (by simp [hc])]
  | wake hc => exact (h.sleepUntilWoken hh hc).settleTick
  | serve hc _ => exact h.serve hh hc
  | pollNothing hc _ =>
    exact ((h.polled false hc).toWait hh (h.armed_at hc rfl) (h.dark (by simp [hc]))).settleTick
  | sample hc => exact (h.sample hh hc).settleTick
  | pass hc hr => exact (h.pass hh hc hr).settleTick
  | suppress hc _ => exact ((h.idleGate hc).toWait hh (h.armed_at hc rfl) (h.dark (by simp [hc]))).settleTick
  | encode hc => exact (h.encode hh hc).settleTick
  | mark p hc _ => exact h.mark hh p.mark hc
  | space p hc _ hm => exact h.space hh p.space hc hm
  | lastSpace p hc _ _ => exact (h.lastSpace hh p.space hc).settleTick
  | noPair hc hp => exact absurd hp (h.pair_left hc)

end

/-- The invariant of the block is kept by every step: reset, the run of a presented word and the main context's moves. -/
theorem BlockInv.step {s t : State} (h : BlockInv s) (ht : Machine.step s = .next t) : BlockInv t := by
  rcases step_cases ht with ⟨-, rfl⟩ | ⟨-, hh, ⟨nbits, w, i, -, hi, he⟩ | ⟨-, hm⟩⟩
  · exact blockInv_afterReset _ _ _ _
  · have hp : BlockInv { s with port := none } := { h with }
    obtain ⟨ps, hps⟩ := exec_item (decodeTableWord_item hi) { s with port := none }
    rw [hps] at he
    cases he
    exact hp.emitPulses ps
  · exact h.move hh hm

/-- Settles O50: the step's cases, each by the lemma that says what it keeps. -/
theorem stepKeepsBlockInvariant : Obligations.StepKeepsBlockInvariant := fun _ _ h ht => h.step ht

/-- Settles O49: `State.reset` is what a reset leaves. -/
theorem resetMeetsBlockInvariant : Obligations.ResetMeetsBlockInvariant := blockInv_afterReset _ _ _ _

/-- Settles O48: R29's values are those `State.reset` is made of, and a level of 0 leaves the line dark at every time. -/
theorem resetStateValues : Obligations.ResetStateValues := by
  refine ⟨rfl, rfl, rfl, rfl, rfl, rfl, rfl, rfl, rfl, rfl, rfl, rfl, rfl, rfl, rfl, fun t => ?_⟩
  have hlevel : levelAt State.reset t = 0 := rfl
  simp [irOutAt, hlevel]

end Sys2Proof.Machine
end

section
/-! PROOF. The transitions of `PHASE` (O51). -/

namespace Sys2Proof.Machine

open Sys2Proof

/-! ### PHASE (R20) -/

/-- Only reset moves a halted block (R20, R131). -/
theorem resetIn_of_halt {s t : State} (h : BlockInv s) (hp : s.phase = .halt) (ht : step s = .next t) : s.env.resetIn = true := by
  rcases step_cases ht with ⟨hr, -⟩ | ⟨-, hh, -⟩
  · exact hr
  · rw [h.halted_iff.mpr hp] at hh
    cases hh

/-- The step of a running block is a move of its main context. -/
theorem mainMove_of_step {s t : State} (hr : Running s) (ht : step s = .next t) : MainMove s t := by
  obtain ⟨hreset, -, hport⟩ := hr
  rcases step_cases ht with ⟨h, -⟩ | ⟨-, -, ⟨_, _, _, h, -⟩ | ⟨-, hm⟩⟩
  · rw [hreset] at h; cases h
  · rw [hport] at h; cases h
  · exact hm

@[simp] theorem enterService_phase (s : State) : (enterService s).phase = .service := by
  simp [enterService]
  rw [drawLatency_frame]

@[simp] theorem sleepUntilWoken_phase (s : State) : (sleepUntilWoken s).phase = .wait := by
  rcases sleepUntilWoken_cases s with ⟨_, -, -, e⟩ | ⟨-, -, e⟩ | ⟨-, -, e⟩ <;> rw [e]

/-- GATE writes `IDLE_CNT` and its answer (R95). -/
theorem exec_gate {s : State} {b : Bool} (hr : (idleGate s).ret = b) :
    exec .gate s = .next { s with idleCnt := (idleGate s).idleCnt, ret := b } := by
  subst hr; rfl

/-- Settles O51: each move of the main context starts in its control position's phase and ends in the phase it writes. -/
theorem phaseTransitionsOnly : Obligations.PhaseTransitionsOnly := by
  refine ⟨rfl, fun s t h hp ht => resetIn_of_halt h hp ht, fun s t h hr ht => ?_⟩
  have hh := hr.2.1
  cases mainMove_of_step hr ht with
  | carcfg hc _ =>
    have hp : s.phase = .reset := h.phase_at hc hh rfl
    simp [hp]
  | darken hc =>
    have hp : s.phase = .init := h.phase_at hc hh rfl
    simp [hp, hc]
  | arm hc ha =>
    have hp : s.phase = .init := h.phase_at hc hh rfl
    simp [hp, hc, ha]
  | fail hc ha =>
    have hp : s.phase = .init := h.phase_at hc hh rfl
    simp [hp, hc, ha]
  | status hc =>
    have hp : s.phase = .init := h.phase_at hc hh rfl
    simp [hp, hc, h.armed_at hc rfl]
  | wake hc =>
    have hp : s.phase = .wait := h.phase_at hc hh rfl
    simp [hp, hc]
  | serve hc hd =>
    have hp : s.phase = .wait := h.phase_at hc hh rfl
    simp [hp, hc, hd]
  | pollNothing hc hd =>
    have hp : s.phase = .wait := h.phase_at hc hh rfl
    simp [hp, hc, hd]
  | sample hc =>
    have hp : s.phase = .service := h.phase_at hc hh rfl
    simp [hp, hc]
  | pass hc hg =>
    have hp : s.phase = .service := h.phase_at hc hh rfl
    have he := exec_gate hg
    rw [idleGate_ret] at hg
    simp [hp, hc, hg, he]
  | suppress hc hg =>
    have hp : s.phase = .service := h.phase_at hc hh rfl
    have he := exec_gate hg
    rw [idleGate_ret] at hg
    simp [hp, hc, hg, he]
  | encode hc =>
    have hp : s.phase = .service := h.phase_at hc hh rfl
    simp [hp, hc, h.gate_passed (.inl hc)]
  | mark p hc _ =>
    have hp : s.phase = .tx := h.phase_at hc hh rfl
    simp [hp, hc]
  | space p hc _ hm =>
    have hp : s.phase = .tx := h.phase_at hc hh rfl
    have hslot : s.slot < 25 := by rw [h.plist_length] at hm; omega
    simp [hp, hc, hslot]
  | lastSpace p hc _ hm =>
    have hp : s.phase = .tx := h.phase_at hc hh rfl
    have hslot : s.slot = 25 := by
      have := h.slot_lt (.inr hc)
      rw [h.plist_length] at hm
      omega
    simp [hp, hc, hslot]
  | noPair hc hn => exact absurd hn (h.pair_left hc)

end Sys2Proof.Machine
end

section
/-! PROOF. The owners of each element (O58) and the parameters (O57). -/

namespace Sys2Proof.Machine

open Sys2Proof

/-! ### What the timer may write while time passes, on time or late -/

/-- Between `s` and `t` the timer only fired TICKs: `NEXT_FIRE` and `DUE` moved only if `TICKS` gained an entry, and `DUE` was not
cleared (R81, R86). Unlike `TimerRan` it needs no timer that is on time. -/
def OnlyTicked (s t : State) : Prop :=
  ∃ fired, t.ticks = s.ticks ++ fired ∧ (fired = [] → t.nextFire = s.nextFire ∧ t.due = s.due)
    ∧ (s.due = true → t.due = true)

theorem OnlyTicked.refl (s : State) : OnlyTicked s s := ⟨[], by simp, fun _ => ⟨rfl, rfl⟩, id⟩

theorem OnlyTicked.trans {s t u : State} (h : OnlyTicked s t) (h' : OnlyTicked t u) : OnlyTicked s u := by
  obtain ⟨f, hf, hq, hd⟩ := h
  obtain ⟨g, hg, hq', hd'⟩ := h'
  refine ⟨f ++ g, by rw [hg, hf, List.append_assoc], fun he => ?_, fun h => hd' (hd h)⟩
  obtain ⟨rfl, rfl⟩ := List.append_eq_nil_iff.mp he
  obtain ⟨hn, hdue⟩ := hq rfl
  obtain ⟨hn', hdue'⟩ := hq' rfl
  exact ⟨hn'.trans hn, hdue'.trans hdue⟩

theorem OnlyTicked.nextFire {s t : State} (h : OnlyTicked s t) (hn : t.nextFire ≠ s.nextFire) : t.ticks ≠ s.ticks := by
  obtain ⟨f, hf, hq, -⟩ := h
  intro he
  have hnil : f = [] := by simpa [hf] using he
  exact hn (hq hnil).1

theorem OnlyTicked.due_set {s t : State} (h : OnlyTicked s t) (hs : s.due = false) (ht : t.due = true) : t.ticks ≠ s.ticks := by
  obtain ⟨f, hf, hq, -⟩ := h
  intro he
  have hnil : f = [] := by simpa [hf] using he
  rw [(hq hnil).2, hs] at ht
  cases ht

theorem OnlyTicked.due_kept {s t : State} (h : OnlyTicked s t) (hs : s.due = true) : t.due ≠ false := by
  obtain ⟨-, -, -, hd⟩ := h
  simp [hd hs]

theorem tickFire_onlyTicked (s : State) : OnlyTicked s (tickFire s) := ⟨[s.now], rfl, by simp, fun _ => rfl⟩

theorem fireTicks_onlyTicked (fuel limit : Nat) (s : State) : OnlyTicked s (fireTicks fuel limit s) := by
  induction fuel generalizing s with
  | zero => exact .refl s
  | succ n ih =>
    rw [fireTicks]
    split
    · exact .trans ⟨[s.nextFire], rfl, by simp, fun _ => rfl⟩ (ih _)
    · exact .refl s

theorem settleTick_onlyTicked (s : State) : OnlyTicked s (settleTick s) := by
  have hd : OnlyTicked s (drawOrder s).2 := ⟨[], by simp, by simp, by simp⟩
  unfold settleTick
  split
  · split
    · exact hd.trans (tickFire_onlyTicked _)
    · exact hd
  · exact .refl s

theorem waitFor_onlyTicked (d : Nat) (s : State) : OnlyTicked s (waitFor d s) :=
  (fireTicks_onlyTicked d (s.now + d) s).trans
    (settleTick_onlyTicked { fireTicks d (s.now + d) s with now := s.now + d })

theorem markFor_onlyTicked (d : Nat) (s : State) : OnlyTicked s (markFor d s) :=
  waitFor_onlyTicked d (setLevel s.carOn { s with seg := .markSeg })

theorem spaceFor_onlyTicked (d : Nat) (s : State) : OnlyTicked s (spaceFor d s) :=
  waitFor_onlyTicked d (setLevel 0 { s with seg := .spaceSeg })

theorem pulseFor_onlyTicked (p : Pulse) (s : State) : OnlyTicked s (pulseFor p s) :=
  (markFor_onlyTicked p.mark s).trans (spaceFor_onlyTicked p.space _)

theorem emitPulses_onlyTicked (ps : List Pulse) (s : State) : OnlyTicked s (emitPulses ps s) := by
  induction ps generalizing s with
  | nil => exact .refl s
  | cons p ps ih => exact (pulseFor_onlyTicked p s).trans (ih (pulseFor p s))

theorem emitSlots_onlyTicked (ps : List Pulse) (s : State) : OnlyTicked s (ps.foldl (fun t p => emitSlot p t) s) := by
  induction ps generalizing s with
  | nil => exact .refl s
  | cons p ps ih => exact (pulseFor_onlyTicked p s).trans (ih (emitSlot p s))

theorem transmitFrame_onlyTicked (s : State) : OnlyTicked s (transmitFrame s) := emitSlots_onlyTicked s.plist (startFrame s)

theorem statusPulse_onlyTicked (s : State) : OnlyTicked s (statusPulse s) := by
  cases h : s.params.hasStatus with
  | false => rw [statusPulse_none s h]; exact .refl s
  | true =>
    rw [statusPulse_some s h, statusWrite]
    split <;> exact waitFor_onlyTicked s.params.tStatusPulse
      { s with statusOut := true, statusLog := s.statusLog ++ [(s.now, true)] }

theorem enterService_onlyTicked (s : State) : OnlyTicked s (enterService s) := by
  have hd : OnlyTicked s (drawLatency { s with phase := .service }).2 := by
    rw [drawLatency_frame]
    exact .refl s
  exact hd.trans (waitFor_onlyTicked _ _)

theorem finishService_onlyTicked (s : State) : OnlyTicked s (finishService s) := by
  unfold finishService
  split
  · exact (settleTick_onlyTicked s).trans
      ((settleTick_onlyTicked (encodeSnapshot (settleTick s))).trans (transmitFrame_onlyTicked _))
  · exact .refl s

theorem serveTick_onlyTicked (s : State) : OnlyTicked s (serveTick s) :=
  (enterService_onlyTicked s).trans
    ((settleTick_onlyTicked (sampleInputs (enterService s))).trans (finishService_onlyTicked (idleGate _)))

/-! ### What pulses and a service leave unchanged (R112 to R114, R129, R130) -/

/-- Between `s` and `t` only the line, its history, and what a busy wait may change moved. -/
def LineFrame (s t : State) : Prop :=
  t = { s with
    seg := t.seg, carLevel := t.carLevel, trace := t.trace, now := t.now, due := t.due, nextFire := t.nextFire
    ticks := t.ticks, ctl := t.ctl, env := t.env, drawIx := t.drawIx }

theorem markFor_lineFrame (d : Nat) (s : State) : LineFrame s (markFor d s) := by ext1 <;> simp

theorem spaceFor_lineFrame (d : Nat) (s : State) : LineFrame s (spaceFor d s) := by ext1 <;> simp

theorem pulseFor_lineFrame (p : Pulse) (s : State) : LineFrame s (pulseFor p s) := by ext1 <;> simp

theorem emitPulses_lineFrame (ps : List Pulse) (s : State) : LineFrame s (emitPulses ps s) := by ext1 <;> simp

/-- TXFRAME's loop writes `SLOT` beside the line (R130). -/
theorem emitSlots_lineFrame (ps : List Pulse) (s : State) :
    LineFrame { s with slot := (ps.foldl (fun t p => emitSlot p t) s).slot } (ps.foldl (fun t p => emitSlot p t) s) := by
  induction ps generalizing s with
  | nil => rfl
  | cons p ps ih =>
    have hp := pulseFor_lineFrame p s
    have hrest := ih (emitSlot p s)
    rw [List.foldl_cons]
    generalize ps.foldl (fun t p => emitSlot p t) (emitSlot p s) = u at hrest
    unfold LineFrame emitSlot nextSlot at *
    rw [hrest, hp]

/-- Between `s` and `t` only what a service writes moved: the line, time, and the registers of sampler, gate, encoder and TXFRAME. -/
def ServiceFrame (s t : State) : Prop :=
  LineFrame { s with
    idleCnt := t.idleCnt, snap := t.snap, txw := t.txw, plist := t.plist, slot := t.slot, phase := t.phase, ret := t.ret } t

theorem ServiceFrame.trans {s t u : State} (h : ServiceFrame s t) (h' : ServiceFrame t u) : ServiceFrame s u := by
  unfold ServiceFrame LineFrame at *
  rw [h', h]

theorem LineFrame.service {s t : State} (h : LineFrame s t) : ServiceFrame s t := by
  unfold ServiceFrame LineFrame at *
  rw [h]

theorem settleTick_serviceFrame (s : State) : ServiceFrame s (settleTick s) := LineFrame.service (by ext1 <;> simp)

theorem transmitFrame_lineFrame (s : State) :
    LineFrame { s with phase := .tx, slot := (transmitFrame s).slot } (transmitFrame s) :=
  emitSlots_lineFrame s.plist (startFrame s)

theorem transmitFrame_serviceFrame (s : State) : ServiceFrame s (transmitFrame s) := by
  have h := transmitFrame_lineFrame s
  generalize transmitFrame s = t at h
  unfold ServiceFrame LineFrame at *
  rw [h]

theorem enterService_serviceFrame (s : State) : ServiceFrame s (enterService s) := by
  have hd : ServiceFrame s (drawLatency { s with phase := .service }).2 := by rw [drawLatency_frame]; rfl
  refine hd.trans (LineFrame.service ?_)
  ext1 <;> simp [enterService]

theorem finishService_serviceFrame (s : State) : ServiceFrame s (finishService s) := by
  unfold finishService
  split
  · have he : ServiceFrame (settleTick s) (encodeSnapshot (settleTick s)) := rfl
    have hw : ∀ u, ServiceFrame u (toWait u) := fun _ => rfl
    exact (settleTick_serviceFrame s).trans (he.trans ((settleTick_serviceFrame _).trans
      ((transmitFrame_serviceFrame _).trans (hw _))))
  · rfl

theorem serveTick_serviceFrame (s : State) : ServiceFrame s (serveTick s) := by
  have hs : ∀ u, ServiceFrame u (sampleInputs u) := fun _ => rfl
  have hg : ∀ u, ServiceFrame u (idleGate u) := fun _ => rfl
  exact (enterService_serviceFrame s).trans ((hs _).trans ((settleTick_serviceFrame _).trans
    ((hg _).trans (finishService_serviceFrame _))))

/-! ### Owners -/

/-- What O58 says of one operation `i` that takes `s` to `t`: whichever element moved, `i` is one of its owners. -/
def OwnersOnly (i : Instr) (s t : State) : Prop :=
  (t.idleCnt ≠ s.idleCnt → i = .gate ∨ i = .service)
  ∧ (t.carLevel ≠ s.carLevel ∨ t.trace ≠ s.trace → emits i = true ∨ i = .init ∨ ∃ v, i = .setlvl v)
  ∧ (t.seg ≠ s.seg → emits i = true)
  ∧ (t.snap ≠ s.snap → i = .sample ∨ i = .service)
  ∧ (t.txw ≠ s.txw ∨ t.plist ≠ s.plist → i = .encode ∨ i = .service)
  ∧ (t.slot ≠ s.slot → i = .txframe ∨ i = .service)
  ∧ (t.phase ≠ s.phase → i = .init ∨ i = .wait ∨ i = .service ∨ i = .txframe ∨ i = .halt)
  ∧ (t.carWrap ≠ s.carWrap ∨ t.carOn ≠ s.carOn → i = .carcfg ∨ i = .init)
  ∧ (t.armed ≠ s.armed → i = .arm ∨ i = .init)
  ∧ (t.nextFire ≠ s.nextFire → i = .arm ∨ i = .init ∨ t.ticks ≠ s.ticks)
  ∧ (t.ticks ≠ s.ticks → i = .tick ∨ i = .wait ∨ i = .status ∨ i = .init ∨ emits i = true)
  ∧ (t.now ≠ s.now → i = .wait ∨ i = .status ∨ i = .init ∨ emits i = true)
  ∧ (t.halted ≠ s.halted → i = .halt ∨ i = .init)
  ∧ (t.statusOut ≠ s.statusOut → i = .status ∨ i = .init)
  ∧ (s.due = true → t.due = false → i = .poll)
  ∧ (s.due = false → t.due = true → t.ticks ≠ s.ticks)
  ∧ (s.armed = true → t.armed = true)
  ∧ t.carPhi = s.carPhi ∧ t.params = s.params

/-- Where only TICKs fired, `NEXT_FIRE` and `DUE` have their owners, whatever the operation is. -/
theorem OnlyTicked.owners {s t : State} (h : OnlyTicked s t) (i : Instr) :
    (t.nextFire ≠ s.nextFire → i = .arm ∨ i = .init ∨ t.ticks ≠ s.ticks)
    ∧ (s.due = true → t.due = false → i = .poll) ∧ (s.due = false → t.due = true → t.ticks ≠ s.ticks) :=
  ⟨fun hn => .inr (.inr (h.nextFire hn)), fun hs ht => absurd ht (h.due_kept hs), h.due_set⟩

/-- An operation that puts pulses on the wire and moves nothing but the line and time. -/
theorem ownersOnly_of_lineFrame {i : Instr} {s t : State} (hi : emits i = true) (hf : LineFrame s t) (ht : OnlyTicked s t) :
    OwnersOnly i s t := by
  have ho := ht.owners i
  rw [LineFrame] at hf
  rw [OwnersOnly, hf]
  simpa [hi] using ho

theorem txframe_ownersOnly (s : State) : OwnersOnly .txframe s (transmitFrame s) := by
  have ho := (transmitFrame_onlyTicked s).owners .txframe
  have hf := transmitFrame_lineFrame s
  rw [LineFrame] at hf
  rw [OwnersOnly, hf]
  simpa [emits] using ho

theorem service_ownersOnly (s : State) : OwnersOnly .service s (serveTick s) := by
  have ho := (serveTick_onlyTicked s).owners .service
  have hf := serveTick_serviceFrame s
  rw [ServiceFrame, LineFrame] at hf
  rw [OwnersOnly, hf]
  simpa [emits] using ho

theorem status_ownersOnly (s : State) : OwnersOnly .status s (statusPulse s) := by
  have ho := (statusPulse_onlyTicked s).owners .status
  rw [OwnersOnly, statusPulse_frame]
  simpa using ho

theorem wait_ownersOnly (s : State) : OwnersOnly .wait s (sleepUntilWoken s) := by
  rcases sleepUntilWoken_cases s with ⟨x, -, -, e⟩ | ⟨-, -, e⟩ | ⟨-, -, e⟩ <;> rw [e, drawWake_frame]
  · simp [OwnersOnly]
  · simp [OwnersOnly]
  · simp [OwnersOnly]

theorem tick_ownersOnly (s : State) : OwnersOnly .tick s (if tickEnabled s then tickFire s else s) := by
  split
  · simp [OwnersOnly]
  · simp [OwnersOnly]

theorem arm_ownersOnly (s : State) : OwnersOnly .arm s (armTimer s) := by
  rcases armTimer_cases s with ⟨-, e⟩ | ⟨-, e⟩ <;> rw [e]
  · simp [OwnersOnly]
  · simp [OwnersOnly]

theorem init_ownersOnly (s : State) : OwnersOnly .init s (startUp s) := by
  unfold startUp finishInit
  rcases armTimer_cases (setLevel 0 (deriveCarrier { s with phase := .init })) with ⟨-, e⟩ | ⟨-, e⟩ <;> rw [e]
  · have ho := (statusPulse_onlyTicked { setLevel 0 (deriveCarrier { s with phase := .init }) with
      armed := true, nextFire := s.now + s.params.tFrame, ret := true }).owners .init
    rw [if_pos rfl, OwnersOnly, statusPulse_frame]
    simpa using ho
  · simp [OwnersOnly]

/-- Every operation moves only what it owns. -/
theorem exec_ownersOnly {i : Instr} {s t : State} (h : exec i s = .next t) : OwnersOnly i s t := by
  cases i with
  | frame _ | txw _ | hdr | zero | one | id =>
    cases h
    exact ownersOnly_of_lineFrame rfl (emitPulses_lineFrame _ s) (emitPulses_onlyTicked _ s)
  | mark d => cases h; exact ownersOnly_of_lineFrame rfl (markFor_lineFrame d s) (markFor_onlyTicked d s)
  | space d => cases h; exact ownersOnly_of_lineFrame rfl (spaceFor_lineFrame d s) (spaceFor_onlyTicked d s)
  | pulse m sp => cases h; exact ownersOnly_of_lineFrame rfl (pulseFor_lineFrame _ s) (pulseFor_onlyTicked _ s)
  | txframe => cases h; exact txframe_ownersOnly s
  | service => cases h; exact service_ownersOnly s
  | status => cases h; exact status_ownersOnly s
  | wait => cases h; exact wait_ownersOnly s
  | arm => cases h; exact arm_ownersOnly s
  | tick => cases h; exact tick_ownersOnly s
  | init =>
    rw [exec, execInit] at h
    split at h
    · cases h; exact init_ownersOnly s
    · cases h
  | carcfg =>
    rw [exec, execCarcfg] at h
    split at h
    · cases h; simp [OwnersOnly]
    · cases h
  | poll => cases h; simp [pollDue_eq, OwnersOnly]
  | sample | gate | encode | setlvl _ | halt => cases h; simp [OwnersOnly]

/-- Settles O58: `OwnersOnly` is its conclusion, proved operation by operation. -/
theorem elementsWrittenByOwnersOnly : Obligations.ElementsWrittenByOwnersOnly := fun _ _ _ h => exec_ownersOnly h

/-! ### The parameters (R14, R15) -/

theorem exec_params {i : Instr} {s t : State} (h : exec i s = .next t) : t.params = s.params := by
  obtain ⟨-, -, -, -, -, -, -, -, -, -, -, -, -, -, -, -, -, -, hp⟩ := exec_ownersOnly h
  exact hp

@[simp] theorem statusPulse_params (s : State) : (statusPulse s).params = s.params := by rw [statusPulse_frame]

@[simp] theorem sleepUntilWoken_params (s : State) : (sleepUntilWoken s).params = s.params := exec_params (i := .wait) rfl

@[simp] theorem enterService_params (s : State) : (enterService s).params = s.params := by
  have h := enterService_serviceFrame s
  rw [ServiceFrame, LineFrame] at h
  rw [h]

/-- No move of the main context writes a parameter: neither its operation nor what is done around it. -/
theorem MainMove.params {s t : State} (h : MainMove s t) : t.params = s.params := by
  cases h <;> simp

/-- Settles O57: an operation by its owners, a step by its cases. -/
theorem parametersNeverMutated : Obligations.ParametersNeverMutated := by
  refine ⟨fun _ _ _ h => exec_params h, fun s t h => ?_⟩
  rcases step_cases h with ⟨-, rfl⟩ | ⟨-, -, ⟨_, _, i, -, -, he⟩ | ⟨-, hm⟩⟩
  · rfl
  · have hp := exec_params he
    exact hp
  · exact hm.params

end Sys2Proof.Machine
end

section
/-! PROOF. A frame in flight does not depend on the input lines (O59): replacing the stimulus commutes with every operation that
TXFRAME consists of, the draw of a coincident TICK's order among them. -/

namespace Sys2Proof.Machine

open Sys2Proof

/-- The same state under another stimulus: only the scripted levels of the input lines are replaced (spec/30_encoding.md R70). -/
def State.withInputs (inputs : List (Nat × Nat)) (s : State) : State := { s with env := { s.env with inputs := inputs } }

section
variable (inputs : List (Nat × Nat)) (s : State)

/-! ### Time passing reads no input line -/

/-- The order of a TICK and the next operation is drawn from its own script, or by the draw counter (R144). -/
theorem drawOrder_withInputs :
    drawOrder (s.withInputs inputs) = ((drawOrder s).1, (drawOrder s).2.withInputs inputs) := by
  cases h : s.env.orders with
  | nil => simp [drawOrder, State.withInputs, h]
  | cons b rest => simp [drawOrder, State.withInputs, h]

theorem tickFire_withInputs : tickFire (s.withInputs inputs) = (tickFire s).withInputs inputs := rfl

theorem fireTicks_withInputs (fuel limit : Nat) :
    fireTicks fuel limit (s.withInputs inputs) = (fireTicks fuel limit s).withInputs inputs := by
  induction fuel generalizing s with
  | zero => rfl
  | succ n ih =>
    have hdue : ((s.withInputs inputs).armed && decide ((s.withInputs inputs).nextFire < limit))
        = (s.armed && decide (s.nextFire < limit)) := rfl
    rw [fireTicks, fireTicks, hdue]
    split
    · exact ih (tickFire { s with now := s.nextFire })
    · rfl

theorem settleTick_withInputs : settleTick (s.withInputs inputs) = (settleTick s).withInputs inputs := by
  have hen : tickEnabled (s.withInputs inputs) = tickEnabled s := rfl
  rw [settleTick, settleTick, hen, drawOrder_withInputs, tickFire_withInputs]
  split
  · split <;> rfl
  · rfl

theorem waitFor_withInputs (d : Nat) : waitFor d (s.withInputs inputs) = (waitFor d s).withInputs inputs := by
  have hnow : (s.withInputs inputs).now = s.now := rfl
  rw [waitFor, fireTicks_withInputs, hnow]
  exact settleTick_withInputs inputs { fireTicks d (s.now + d) s with now := s.now + d }

/-! ### Nor does the line -/

theorem markFor_withInputs (d : Nat) : markFor d (s.withInputs inputs) = (markFor d s).withInputs inputs :=
  waitFor_withInputs inputs (setLevel s.carOn { s with seg := .markSeg }) d

theorem spaceFor_withInputs (d : Nat) : spaceFor d (s.withInputs inputs) = (spaceFor d s).withInputs inputs :=
  waitFor_withInputs inputs (setLevel 0 { s with seg := .spaceSeg }) d

theorem pulseFor_withInputs (p : Pulse) : pulseFor p (s.withInputs inputs) = (pulseFor p s).withInputs inputs := by
  rw [pulseFor, markFor_withInputs, spaceFor_withInputs, pulseFor]

theorem emitSlot_withInputs (p : Pulse) : emitSlot p (s.withInputs inputs) = (emitSlot p s).withInputs inputs := by
  rw [emitSlot, pulseFor_withInputs]
  rfl

/-- TXFRAME's loop runs over the `PLIST` that ENCODE left, slot by slot (R130). -/
theorem transmitFrame_withInputs : transmitFrame (s.withInputs inputs) = (transmitFrame s).withInputs inputs :=
  List.foldl_hom (State.withInputs inputs) (init := startFrame s) fun t p => emitSlot_withInputs inputs t p

end

/-- Settles O59: under any other stimulus TXFRAME does the same, since every slot of its loop does. -/
theorem frameIgnoresInputs : Obligations.FrameIgnoresInputs := fun s inputs =>
  ⟨transmitFrame s, rfl, congrArg Host.Outcome.next (transmitFrame_withInputs inputs s)⟩

end Sys2Proof.Machine
end

section
/-! SUPPORT. The frame format's reader and writer, said once each: the symbols of a number's bits, the runs of bit slots that are read,
the well-formed frame words, what the decoder answers on a run of bit slots. -/

namespace Sys2Proof

/-! ### The bits of a number as symbols, and back (spec/30_encoding.md R61, R65) -/

/-- The most significant of `k + 1` bits comes first. -/
theorem wordSyms_succ (k n : Nat) : wordSyms (k + 1) n = symOf (n.testBit k) :: wordSyms k n := by
  simp [wordSyms, List.range_succ_eq_map, Function.comp_def, Nat.sub_add_eq, Nat.sub_right_comm]

theorem wordSyms_length (k n : Nat) : (wordSyms k n).length = k := by simp [wordSyms]

/-- The bit slots of a frame word are the 25 bits of its number. -/
theorem wordSyms_toNat (w : FrameWord) : wordSyms 25 w.toNat = bitSyms w := rfl

theorem readBits_symOf_cons (acc : Nat) (b : Bool) (syms : List SlotSym) :
    readBits acc (symOf b :: syms) = readBits (2 * acc + b.toNat) syms := by cases b <;> rfl

/-- Reading the `k` lowest bits of a number appends them to what was read before. -/
theorem readBits_wordSyms (k n acc : Nat) : readBits acc (wordSyms k n) = .ok (acc * 2 ^ k + n % 2 ^ k) := by
  induction k generalizing acc with
  | zero => simp [wordSyms, readBits, Nat.mod_one]
  | succ k ih =>
    rw [wordSyms_succ, readBits_symOf_cons, ih, Nat.toNat_testBit, Nat.mod_pow_succ]
    congr 1
    ring

/-- A run that is read is the symbols of the number's lowest bits, and the bits above them were read before. -/
theorem wordSyms_of_readBits {syms : List SlotSym} {acc n : Nat} (h : readBits acc syms = .ok n) :
    syms = wordSyms syms.length n ∧ n / 2 ^ syms.length = acc := by
  induction syms generalizing acc with
  | nil => cases h; simp [wordSyms]
  | cons b syms ih =>
    have bit_read : ∀ c : Bool, readBits (2 * acc + c.toNat) syms = .ok n →
        symOf c :: syms = wordSyms (syms.length + 1) n ∧ n / 2 ^ (syms.length + 1) = acc := by
      intro c hc
      obtain ⟨hsyms, hdiv⟩ := ih hc
      have htop : n.testBit syms.length = c := by
        rw [Nat.testBit_eq_decide_div_mod_eq, hdiv]
        cases c <;> simp [Nat.add_mod]
      refine ⟨by rw [wordSyms_succ, htop, ← hsyms], ?_⟩
      rw [Nat.pow_succ, ← Nat.div_div_eq_div_mul, hdiv]
      cases c <;> simp [Nat.add_div]
    cases b with
    | hdr => cases h
    | zero => exact bit_read false h
    | one => exact bit_read true h

/-! ### Well-formed frame words (R64, R65, R67) -/

/-- The data field of a frame word is the snapshot. -/
theorem frameWord_data (v : Snapshot) : (frameWord v).extractLsb' 12 12 = v := by
  refine BitVec.eq_of_getLsbD_eq fun i hi => ?_
  rw [BitVec.getLsbD_extractLsb', frameWord_data_bit v i hi]
  simp [hi]

/-- The check field of a frame word is the complement of the snapshot. -/
theorem frameWord_check (v : Snapshot) : (frameWord v).extractLsb' 0 12 = checkField v := by
  refine BitVec.eq_of_getLsbD_eq fun i hi => ?_
  rw [BitVec.getLsbD_extractLsb', Nat.zero_add, frameWord_check_bit v i hi]
  simp [hi, checkField]

/-- A word with id bit 0 and a check field that is the complement of its data field is the frame word of its data field. -/
theorem frameWord_of_fields {w : FrameWord} (hid : w.getLsbD 24 = false)
    (hcheck : w.extractLsb' 0 12 = checkField (w.extractLsb' 12 12)) : frameWord (w.extractLsb' 12 12) = w := by
  refine BitVec.eq_of_getLsbD_eq fun i hi => ?_
  obtain hlow | ⟨j, hj, rfl⟩ | rfl : i < 12 ∨ (∃ j < 12, i = 12 + j) ∨ i = 24 := by
    by_cases h12 : i < 12
    · exact .inl h12
    · by_cases h24 : i = 24
      · exact .inr (.inr h24)
      · exact .inr (.inl ⟨i - 12, by omega, by omega⟩)
  · have hbit := congrArg (BitVec.getLsbD · i) hcheck
    rw [frameWord_check_bit _ i hlow]
    simpa [checkField, hlow] using hbit.symm
  · rw [frameWord_data_bit _ j hj]
    simp [hj]
  · rw [frameWord_id_bit, hid]

/-- The words that are read are exactly the frame words. -/
theorem decodeFrameWord_eq_ok_iff {w : FrameWord} {v : Snapshot} : decodeFrameWord w = .ok v ↔ w = frameWord v := by
  constructor
  · intro h
    unfold decodeFrameWord at h
    split at h
    case isTrue => cases h
    case isFalse hid =>
      split at h
      case isTrue hcheck => cases h; exact (frameWord_of_fields (by simpa using hid) hcheck).symm
      case isFalse => cases h
  · rintro rfl
    rw [decodeFrameWord, frameWord_id_bit, frameWord_check, frameWord_data]
    simp

/-! ### Runs of bit slots (R60, R67) -/

/-- Reading the 25 bit slots of a word is reading the word. -/
theorem decodeBits_bitSyms (w : FrameWord) : decodeBits (bitSyms w) = decodeFrameWord w := by
  have hread : readBits 0 (bitSyms w) = .ok w.toNat := by
    rw [← wordSyms_toNat, readBits_wordSyms, Nat.mod_eq_of_lt w.isLt]
    simp
  simp [decodeBits, Laws.bitSyms_length, hread]

/-- The runs of bit slots that are read are exactly the bit slots of the frame words. -/
theorem decodeBits_eq_ok_iff {syms : List SlotSym} {v : Snapshot} :
    decodeBits syms = .ok v ↔ syms = bitSyms (frameWord v) := by
  constructor
  · intro h
    unfold decodeBits at h
    split at h
    case isTrue => cases h
    case isFalse hlong =>
      split at h
      case isTrue => cases h
      case isFalse hshort =>
        split at h
        case h_1 => cases h
        case h_2 n hread =>
          have hlen : syms.length = 25 := by omega
          obtain ⟨hsyms, htop⟩ := wordSyms_of_readBits hread
          rw [hlen] at hsyms htop
          have hn : (BitVec.ofNat 25 n).toNat = n := by
            rw [BitVec.toNat_ofNat, Nat.mod_eq_of_lt (Nat.lt_of_div_eq_zero (by decide) htop)]
          rw [hsyms, ← decodeFrameWord_eq_ok_iff.mp h, ← wordSyms_toNat, hn]
  · rintro rfl
    rw [decodeBits_bitSyms, decodeFrameWord_eq_ok_iff]

/-- A run of bit slots at slot 1 is the frame word item, or is rejected as its word is. -/
theorem decodeRun_bitSyms (w : FrameWord) : decodeRun 1 (bitSyms w) = (decodeFrameWord w).map .txw := by
  rw [← decodeBits_bitSyms]
  obtain ⟨b, c, syms, hsyms⟩ : ∃ b c syms, bitSyms w = b :: c :: syms := ⟨_, _, _, rfl⟩
  rw [hsyms]
  simp only [decodeRun]
  split <;> simp_all [Except.map]

/-- A header and a run of bit slots at slot 0 is the frame, or is rejected as its word is. -/
theorem decodeRun_hdr_bitSyms (w : FrameWord) : decodeRun 0 (.hdr :: bitSyms w) = (decodeFrameWord w).map .frame := by
  rw [← decodeBits_bitSyms]
  obtain ⟨b, syms, hsyms⟩ : ∃ b syms, bitSyms w = b :: syms := ⟨_, _, rfl⟩
  rw [hsyms]
  simp only [decodeRun]
  split <;> simp_all [Except.map]

theorem decodeRun_frameWord (v : Snapshot) : decodeRun 1 (bitSyms (frameWord v)) = .ok (.txw v) := by
  rw [decodeRun_bitSyms, decodeFrameWord_eq_ok_iff.mpr rfl]
  rfl

theorem decodeRun_frame (v : Snapshot) : decodeRun 0 (frameSyms v) = .ok (.frame v) := by
  rw [frameSyms, decodeRun_hdr_bitSyms, decodeFrameWord_eq_ok_iff.mpr rfl]
  rfl

end Sys2Proof
end

section
/-! PROOF. The encodings (O1, O2, O7, O8, O9, O10, O45): the decoder and the encoder are each other's inverse, on runs of symbols, on
mark durations and on opcode-table words. -/

namespace Sys2Proof

/-! ### The receiver's inverse (spec/30_encoding.md R71) -/

/-- With the zero's mark the shorter, a bit's mark gives the bit's symbol back (R5 (b)). -/
theorem symOfMark_dur {p : Params} (h : p.bitsOk = true) (b : Bool) : symOfMark p (p.dur (symOf b)).mark = .ok (symOf b) := by
  have hmark : p.tZeroMark < p.tOneMark := by
    simp only [Params.bitsOk, Bool.and_eq_true, decide_eq_true_eq] at h
    obtain ⟨⟨-, hmark⟩, -⟩ := h
    exact hmark
  cases b with
  | false => simp [symOf, Params.dur, symOfMark]
  | true => simp [symOf, Params.dur, symOfMark, hmark.ne']

theorem symsOfMarks_dur {p : Params} (h : p.bitsOk = true) (bits : List Bool) :
    symsOfMarks p (((bits.map symOf).map p.dur).map Pulse.mark) = .ok (bits.map symOf) := by
  induction bits with
  | nil => rfl
  | cons b bits ih => simp only [List.map_cons, symsOfMarks, symOfMark_dur h b, ih]

/-- The marks of a header and 25 bit slots are read as the slots are. -/
theorem decodeMarks_of_bitSyms {p : Params} (h : p.bitsOk = true) (w : FrameWord) :
    decodeMarks p (((.hdr :: bitSyms w).map p.dur).map Pulse.mark) = (decodeFrameWord w).map .frame := by
  have hmarks := symsOfMarks_dur h ((List.range 25).map fun i => w.getLsbD (24 - i))
  rw [← bitSyms_eq_map] at hmarks
  have hhdr : (p.dur .hdr).mark = p.tHdrMark := rfl
  simp only [List.map_cons, decodeMarks, hhdr, ne_eq, not_true_eq_false, if_false, hmarks, decodeBits_bitSyms]
  split <;> simp_all [Except.map]

/-! ### Opcode-table words (log 15) -/

/-- A word of 25 bits is read as the run of bit slots it is. -/
theorem decodeTableWord_bits (w : FrameWord) :
    decodeTableWord 32 w.toNat = (decodeRun 1 (bitSyms w)).toOption := by
  simp [decodeTableWord, wordSyms_toNat, w.isLt]

/-- Bit 25 of a word stands for the header. -/
theorem decodeTableWord_hdr_bits (w : FrameWord) :
    decodeTableWord 32 (2 ^ 25 + w.toNat) = (decodeRun 0 (.hdr :: bitSyms w)).toOption := by
  have hw := w.isLt
  have hlow : ¬ 2 ^ 25 + w.toNat < 2 ^ 25 := by omega
  have hhigh : 2 ^ 25 + w.toNat < 2 ^ 26 := by omega
  simp only [decodeTableWord, if_neg hlow, if_pos hhigh, Nat.add_sub_cancel_left, wordSyms_toNat]
  rfl

/-! ### The obligations -/

/-- Settles O1, item by item; an operation has no encoding. -/
theorem decodeOfEncodedItem : Obligations.DecodeOfEncodedItem := by
  intro i slot syms h
  cases i with
  | frame v => cases h; exact decodeRun_frame v
  | txw v => cases h; exact decodeRun_frameWord v
  | hdr | id | zero | one => cases h; rfl
  | _ => cases h

/-- Settles O2, by the branches of the decoder: the third is the frame's, the seventh the frame word's, the eighth a lone bit's. -/
theorem decodedRunIsItsEncoding : Obligations.DecodedRunIsItsEncoding := by
  intro slot syms i h
  unfold decodeRun at h
  split at h
  case h_1 => cases h
  case h_2 => cases h; exact .inl rfl
  case h_3 =>
    split at h
    case h_1 v hv => cases h; rw [decodeBits_eq_ok_iff.mp hv]; exact .inl rfl
    case h_2 => cases h
  case h_4 => cases h
  case h_5 => cases h; exact .inl rfl
  case h_6 => cases h
  case h_7 =>
    split at h
    case h_1 v hv => cases h; rw [decodeBits_eq_ok_iff.mp hv]; exact .inl rfl
    case h_2 => cases h
  case h_8 h0 _ _ h1 =>
    split at h
    case isTrue => cases h
    case isFalse =>
      have hlow : 2 ≤ slot := (Nat.two_le_iff slot).mpr ⟨h0, h1⟩
      have hhigh : slot ≤ 25 := by omega
      split at h
      case h_1 => cases h; exact .inr ⟨hlow, hhigh, .inl ⟨rfl, rfl⟩⟩
      case h_2 => cases h; exact .inr ⟨hlow, hhigh, .inr ⟨rfl, rfl⟩⟩
      case h_3 => cases h
  case h_9 => cases h

/-- Settles O7: a run at slot 1 is rejected as its word is, and a frame that is read is the encoder's own run of 26 symbols. -/
theorem illFormedRunsRejected : Obligations.IllFormedRunsRejected := by
  refine ⟨fun w hid => ?_, fun w hid hcheck => ?_, fun syms v hlen h => ?_⟩
  · rw [decodeRun_bitSyms, decodeFrameWord, if_pos hid]
    rfl
  · rw [decodeRun_bitSyms, decodeFrameWord, hid, if_neg hcheck]
    rfl
  · obtain hown | ⟨hslot, -⟩ := decodedRunIsItsEncoding _ _ _ h
    · cases hown
      exact hlen (Laws.frameSyms_length v)
    · omega

/-- Settles O8: the marks of a frame are read as its bit slots are. -/
theorem receiverInverse : Obligations.ReceiverInverse := by
  intro p v h
  rw [Machine.pulseList, frameSyms, decodeMarks_of_bitSyms h, decodeFrameWord_eq_ok_iff.mpr rfl]
  rfl

/-- Settles O9, item by item. -/
theorem tableWordRoundTrip : Obligations.TableWordRoundTrip := by
  intro i nbits w h
  cases i with
  | frame v => cases h; rw [decodeTableWord_hdr_bits, ← frameSyms, decodeRun_frame]; rfl
  | txw v => cases h; rw [decodeTableWord_bits, decodeRun_frameWord]; rfl
  | zero | one | id => cases h; rfl
  | _ => cases h

/-- Settles O10: the two words are the frame words of their snapshots, the symbols decode by R61's table. -/
theorem sampleWordsDecode : Obligations.SampleWordsDecode :=
  ⟨tableWordRoundTrip (.txw 0x005) 32 0x0005FFA rfl, tableWordRoundTrip (.txw 0xA5C) 32 0x0A5C5A3 rfl,
    tableWordRoundTrip .zero 8 0 rfl, tableWordRoundTrip .one 8 1 rfl, rfl, rfl⟩

/-- Settles O45: out of reset and HALT, a presented word is the step's. -/
theorem stepRunsPresentedWord : Obligations.StepRunsPresentedWord := by
  intro s nbits w hreset hhalt
  have hstep : Machine.step (s.withFetchWord nbits w) = Machine.runWord nbits w { s with port := none } := by
    simp [Machine.step, Machine.State.withFetchWord, Machine.presentWord, Machine.runStep, hreset, hhalt]
  rw [hstep, Machine.runWord]
  exact ⟨fun i hi => by rw [hi], fun hnone => by rw [hnone]⟩

end Sys2Proof
end

section
/-! PROOF. The frame's layout (O3, O4) and its totals (O5): a frame is the header, the id bit, the snapshot's bits and their
complements. -/

namespace Sys2Proof

/-! ### The frame as a run of bits (spec/30_encoding.md R60, R64, R65) -/

/-- The bits of a snapshot as they go out, bit 11 first (R65). -/
def snapshotOrder (v : Snapshot) : List Bool := (List.range 12).map fun j => v.getLsbD (11 - j)

theorem snapshotOrder_length (v : Snapshot) : (snapshotOrder v).length = 12 := by simp [snapshotOrder]

theorem snapshotOrder_get (v : Snapshot) {j : Nat} (h : j < 12) : (snapshotOrder v)[j]? = some (v.getLsbD (11 - j)) := by
  simp [snapshotOrder, h]

/-- The bits of a frame word as they go out: the id bit 0, the snapshot's bits, their complements. -/
theorem frameWord_order (v : Snapshot) :
    ((List.range 25).map fun i => (frameWord v).getLsbD (24 - i)) = false :: (snapshotOrder v ++ (snapshotOrder v).map (!·)) := by
  have hsplit : List.range 25 = 0 :: ((List.range 12).map (1 + ·) ++ (List.range 12).map (13 + ·)) := by decide
  have hdata : ∀ j ∈ List.range 12, (frameWord v).getLsbD (24 - (1 + j)) = v.getLsbD (11 - j) := by
    intro j hj
    have hj := List.mem_range.mp hj
    rw [show 24 - (1 + j) = 12 + (11 - j) by omega, frameWord_data_bit v _ (by omega)]
  have hcheck : ∀ j ∈ List.range 12, (frameWord v).getLsbD (24 - (13 + j)) = !v.getLsbD (11 - j) := by
    intro j _
    rw [show 24 - (13 + j) = 11 - j by omega, frameWord_check_bit v _ (by omega)]
  rw [hsplit, List.map_cons, List.map_append, snapshotOrder]
  simp only [List.map_map]
  exact congrArg₂ List.cons (frameWord_id_bit v)
    (congrArg₂ (· ++ ·) (List.map_congr_left hdata) (List.map_congr_left hcheck))

/-- A frame is the header and the symbols of 25 bits: 0, the snapshot's bits, their complements. -/
theorem frameSyms_eq (v : Snapshot) :
    frameSyms v = .hdr :: (false :: (snapshotOrder v ++ (snapshotOrder v).map (!·))).map symOf := by
  rw [frameSyms, bitSyms_eq_map, frameWord_order]

/-- Bit slot `s` carries bit `25 - s` of the word (R65). -/
theorem bitSyms_get (w : FrameWord) {s : Nat} (h1 : 1 ≤ s) (h25 : s ≤ 25) :
    (bitSyms w)[s - 1]? = some (symOf (w.getLsbD (25 - s))) := by
  have hlt : s - 1 < 25 := by omega
  have hbit : 24 - (s - 1) = 25 - s := by omega
  simp [bitSyms, hlt, hbit]

/-- R65's number: with the data above the check, `v * 4096 + (4095 - v)`. -/
theorem frameWord_toNat (v : Snapshot) : (frameWord v).toNat = v.toNat * 4096 + (4095 - v.toNat) := by
  have hv := v.isLt
  have hcheck : (checkField v).toNat = 4095 - v.toNat := by rw [checkField, BitVec.toNat_not]
  have happend : (frameWord v).toNat = (v.toNat <<< 12) ||| (checkField v).toNat := by
    change ((0#1 ++ v) ++ checkField v : BitVec (1 + 12 + 12)).toNat = _
    rw [BitVec.toNat_append, BitVec.toNat_append]
    simp
  rw [happend, ← Nat.shiftLeft_add_eq_or_of_lt (checkField v).isLt, hcheck, Nat.shiftLeft_eq]

/-- Settles O3, field by field. -/
theorem frameWordAndCheckField : Obligations.FrameWordAndCheckField := by
  intro v
  refine ⟨?_, fun i hi => ?_, frameWord_id_bit v, frameWord_data v, frameWord_check v, fun s => bitSyms_get _, frameWord_toNat v⟩
  · exact (BitVec.and_allOnes).symm
  · simp [checkField, hi]

namespace Machine

/-! ### The pulse list (R66) -/

/-- A pulse list is the header's pair and the pairs of 25 bits: 0, the snapshot's bits, their complements. -/
theorem pulseList_eq (p : Params) (v : Snapshot) :
    pulseList p v = p.dur .hdr ::
      ((false :: (snapshotOrder v ++ (snapshotOrder v).map (!·))).map symOf).map p.dur := by
  rw [pulseList, frameSyms_eq, List.map_cons]

theorem dur_symOf (p : Params) (b : Bool) :
    p.dur (symOf b) = if b then ⟨p.tOneMark, p.tOneSpace⟩ else ⟨p.tZeroMark, p.tZeroSpace⟩ := by
  cases b <;> rfl

/-- Data slot `2 + j` holds the pair of snapshot bit `11 - j`. -/
theorem pulseList_data (p : Params) (v : Snapshot) {j : Nat} (h : j < 12) :
    (pulseList p v)[2 + j]? = some (p.dur (symOf (v.getLsbD (11 - j)))) := by
  have hj : j < (snapshotOrder v).length := by rwa [snapshotOrder_length]
  rw [pulseList_eq, Nat.add_comm 2 j]
  simp only [List.map_cons, List.getElem?_cons_succ, List.getElem?_map]
  rw [List.getElem?_append_left hj, snapshotOrder_get v h]
  rfl

/-- Check slot `14 + j` holds the pair of the complement of snapshot bit `11 - j`. -/
theorem pulseList_check (p : Params) (v : Snapshot) {j : Nat} (h : j < 12) :
    (pulseList p v)[14 + j]? = some (p.dur (symOf (!v.getLsbD (11 - j)))) := by
  have hj : (snapshotOrder v).length ≤ 12 + j := by rw [snapshotOrder_length]; omega
  rw [pulseList_eq, show 14 + j = 12 + j + 1 + 1 by omega]
  simp only [List.map_cons, List.getElem?_cons_succ, List.getElem?_map]
  rw [List.getElem?_append_right hj, snapshotOrder_length, Nat.add_sub_cancel_left, List.getElem?_map, snapshotOrder_get v h]
  rfl

/-- Settles O4: the first form by renumbering the bit slots from 1, the second slot by slot. -/
theorem pulseListLayout : Obligations.PulseListLayout := by
  intro p v
  refine ⟨?_, pulseList_length p v, rfl, ?_, fun j hj => ⟨?_, ?_⟩⟩
  · rw [pulseList, frameSyms, bitSyms, List.map_cons, List.map_map, List.range'_eq_map_range, List.map_map]
    refine congrArg (p.dur .hdr :: ·) (List.map_congr_left fun i _ => ?_)
    have hpos : 25 - (1 + i) = 24 - i := by omega
    change p.dur (symOf ((frameWord v).getLsbD (24 - i))) = p.dur (symOf ((frameWord v).getLsbD (25 - (1 + i))))
    rw [hpos]
  · rw [pulseList_eq]; rfl
  · rw [pulseList_data p v hj, Machine.dur_symOf]
  · rw [pulseList_check p v hj, Machine.dur_symOf]
    cases v.getLsbD (11 - j) <;> rfl

/-! ### The totals of a frame (R69) -/

theorem symOf_injective : Function.Injective symOf := by decide

/-- Bits and their complements hold as many symbols of each bit as there are bits. -/
theorem count_complemented (bits : List Bool) (c : Bool) :
    ((bits ++ bits.map (!·)).map symOf).count (symOf c) = bits.length := by
  have hnot : (bits.map (!·)).count c = bits.count (!c) := by
    rw [← List.count_map_of_injective bits _ Bool.not_injective (!c), Bool.not_not]
  rw [List.count_map_of_injective _ _ symOf_injective, List.count_append, hnot, List.count_add_count_not]

/-- Every frame holds 12 ONE symbols (R69). -/
theorem frameSyms_count_one (v : Snapshot) : (frameSyms v).count .one = 12 := by
  rw [frameSyms_eq, List.map_cons, List.count_cons_of_ne (by decide), List.count_cons_of_ne (by decide)]
  exact (count_complemented _ true).trans (snapshotOrder_length v)

/-- Every frame holds 13 ZERO symbols, the id bit among them (R69). -/
theorem frameSyms_count_zero (v : Snapshot) : (frameSyms v).count .zero = 13 := by
  rw [frameSyms_eq, List.map_cons, List.count_cons_of_ne (by decide)]
  change (SlotSym.zero :: _).count SlotSym.zero = 13
  rw [List.count_cons_self]
  exact congrArg (· + 1) ((count_complemented _ false).trans (snapshotOrder_length v))

/-- The total mark time of a run depends on how many of each symbol it holds. -/
theorem sum_marks (p : Params) (syms : List SlotSym) :
    ((syms.map p.dur).map Pulse.mark).sum
      = syms.count .hdr * p.tHdrMark + syms.count .zero * p.tZeroMark + syms.count .one * p.tOneMark := by
  induction syms with
  | nil => simp
  | cons b syms ih =>
    simp only [List.map_cons, List.sum_cons, ih]
    cases b <;> simp [Params.dur] <;> ring

/-- A frame holds one header. -/
theorem frameSyms_count_hdr (v : Snapshot) : (frameSyms v).count .hdr = 1 := by
  rw [frameSyms, List.count_cons_self, bitSyms_eq_map, List.count_eq_zero_of_not_mem]
  rw [List.mem_map]
  rintro ⟨b, -, hb⟩
  cases b <;> cases hb

/-- A run of pulses puts one event with a level on the trace for each mark (R26). -/
theorem pulseEvents_marks {on : Nat} (h : 0 < on) (t0 : Nat) (ps : List Pulse) :
    ((pulseEvents on t0 ps).filter fun e => e.2 ≠ 0).length = ps.length := by
  induction ps generalizing t0 with
  | nil => rfl
  | cons p ps ih => simpa [pulseEvents, h.ne'] using ih (t0 + p.mark + p.space)

/-- The header and the first `k` bit slots last the header's time and `k` bit durations (R69). -/
theorem pulseTime_take_frame {p : Params} (h : p.bitsOk = true) (v : Snapshot) {k : Nat} (hk : k ≤ 25) :
    pulseTime ((pulseList p v).take (k + 1)) = p.tHdrMark + p.tHdrSpace + k * p.tBit := by
  rw [pulseList, frameSyms, bitSyms_eq_map, List.map_cons, List.take_succ_cons, pulseTime_cons, ← List.map_take,
    ← List.map_take, pulseTime_bits p h, List.length_take_of_le (by simpa using hk)]
  rfl

/-- The active time of every frame (R69 (a)). -/
theorem pulseTime_pulseList {p : Params} (h : p.bitsOk = true) (v : Snapshot) :
    pulseTime (pulseList p v) = p.tActive := by
  have htake := pulseTime_take_frame h v (Nat.le_refl 25)
  rwa [List.take_of_length_le (pulseList_length p v).le] at htake

/-- The active time is the frame period without the gap (R5 (c), R69 (a)). -/
theorem tActive_eq (p : Params) : p.tActive = p.tFrame - p.tGap := (Nat.add_sub_cancel _ p.tGap).symm

/-- Settles O5, total by total. -/
theorem frameTotals : Obligations.FrameTotals := by
  intro p v h
  refine ⟨pulseTime_pulseList h v, tActive_eq p, frameSyms_count_one v, frameSyms_count_zero v, ?_, fun on t0 hon => ?_,
    fun s h1 h25 => ?_⟩
  · rw [pulseList, sum_marks, frameSyms_count_hdr, frameSyms_count_zero, frameSyms_count_one, Nat.one_mul]
  · rw [pulseEvents_marks hon, pulseList_length]
  · obtain ⟨k, rfl⟩ : ∃ k, s = k + 1 := ⟨s - 1, by omega⟩
    exact pulseTime_take_frame h v (by omega)

end Machine

end Sys2Proof
end

section
/-! PROOF. The wire items (O11, O12, O13) and a slot's envelope (O29): each item is a run of pulses, and a slot's two events fix the
level at every time in it. -/

namespace Sys2Proof.Machine

open Sys2Proof

/-- Settles O11: the pulse list of a frame, emitted. -/
theorem frameItemEmitsFrame : Obligations.FrameItemEmitsFrame := by
  intro v s hs hbits
  refine ⟨emitPulses (pulseList s.params v) s, rfl, ?_⟩
  have htime : pulseTime (pulseList s.params v) = s.params.tFrame - s.params.tGap := by
    rw [pulseTime_pulseList hbits, tActive_eq]
  rw [← htime]
  exact emitPulses_elapsed _ _ s hs

/-- The bit slots of a frame word last 25 bit durations (R65, R5 (a)). -/
theorem pulseTime_bitPulses {p : Params} (h : p.bitsOk = true) (v : Snapshot) : pulseTime (bitPulses p v) = 25 * p.tBit := by
  rw [bitPulses, bitSyms_eq_map, pulseTime_bits p h]
  simp

/-- Settles O12: the pairs of the 25 bits, emitted. -/
theorem frameWordItemEmitsBitSlots : Obligations.FrameWordItemEmitsBitSlots := by
  intro v s hs hbits
  refine ⟨emitPulses (bitPulses s.params v) s, rfl, ?_⟩
  have hpulses : ((List.range 25).map fun i => s.params.dur (symOf ((frameWord v).getLsbD (24 - i)))) = bitPulses s.params v := by
    simp [bitPulses, bitSyms]
  rw [hpulses, ← pulseTime_bitPulses hbits v]
  exact emitPulses_elapsed _ _ s hs

/-- Settles O13: each item is one pulse, of its symbol's pair. -/
theorem symbolItemsEmitOnePulse : Obligations.SymbolItemsEmitOnePulse := fun s hs =>
  ⟨⟨_, rfl, pulseFor_elapsed (s.params.dur .hdr) s hs⟩, ⟨_, rfl, pulseFor_elapsed (s.params.dur .zero) s hs⟩,
    ⟨_, rfl, pulseFor_elapsed (s.params.dur .one) s hs⟩, ⟨_, rfl, pulseFor_elapsed (s.params.dur .zero) s hs⟩⟩

/-- The level after a pulse, at a time from its start on: `CAR_ON` in the mark, 0 from the mark's end on (R112 to R114). -/
theorem pulseFor_levelAt (p : Pulse) (s : State) {x : Nat} (h : s.now ≤ x) :
    levelAt (pulseFor p s) x = if s.now + p.mark ≤ x then 0 else s.carOn := by
  have hevents : s.trace ++ [(s.now, s.carOn), (s.now + p.mark, 0)]
      = (s.trace ++ [(s.now, s.carOn)]) ++ [(s.now + p.mark, 0)] := by simp
  rw [levelAt, pulseFor_trace, hevents, lastAt_append, lastAt_append, if_pos h]

/-- Settles O29: the level in the mark is `CAR_ON`, in the space 0. -/
theorem pulseEnvelope : Obligations.PulseEnvelope := by
  intro m sp s t _ hon ht
  cases ht
  refine ⟨fun x hfrom hto => ?_, fun x hfrom _ => ?_⟩
  · have hlevel : levelAt (pulseFor ⟨m, sp⟩ s) x = s.carOn := by
      rw [pulseFor_levelAt _ s hfrom, if_neg (Nat.not_le.mpr hto)]
    simp [envelopeAt, irOutAt, hlevel, hon.ne']
  · have hlevel : levelAt (pulseFor ⟨m, sp⟩ s) x = 0 := by
      rw [pulseFor_levelAt _ s (by omega), if_pos hfrom]
    simp [envelopeAt, irOutAt, hlevel]

end Sys2Proof.Machine
end

section
/-! PROOF. The scheduler (O14 to O18): what ARM and TICK write, that missed ticks coalesce in `DUE`, and the fixed rate: a timer
that runs continues its progression of firings, so it is enough that past ARM every move of the main context changes `TICKS` and
`NEXT_FIRE` only by letting the timer run. -/

namespace Sys2Proof.Machine

open Sys2Proof

/-! ### ARM and TICK (R80, R81) -/

/-- Settles O14: the two answers of the timer. -/
theorem armResult : Obligations.ArmResult := fun s =>
  ⟨fun h => congrArg Host.Outcome.next (armTimer_ok s h), fun h => congrArg Host.Outcome.next (armTimer_fail s h)⟩

/-- TICK is enabled iff the timer is armed and its time has come (R81). -/
theorem tickEnabled_iff (s : State) : tickEnabled s = true ↔ s.armed = true ∧ s.now = s.nextFire := by
  simp [tickEnabled]

theorem exec_tick_of_enabled {s : State} (h : tickEnabled s = true) : exec .tick s = .next (tickFire s) := by
  simp [exec, execTick, h]

theorem exec_tick_of_not_enabled {s : State} (h : ¬ tickEnabled s = true) : exec .tick s = .next s := by
  simp [exec, execTick, h]

/-- Settles O15: an enabled TICK is the interrupt's body. -/
theorem tickEffect : Obligations.TickEffect := fun s harmed hnow =>
  exec_tick_of_enabled ((tickEnabled_iff s).mpr ⟨harmed, hnow⟩)

/-- Settles O16: either reason leaves TICK not enabled. -/
theorem tickWhenNotEnabled : Obligations.TickWhenNotEnabled := by
  intro s h
  refine exec_tick_of_not_enabled fun he => ?_
  obtain ⟨harmed, hnow⟩ := (tickEnabled_iff s).mp he
  rcases h with hunarmed | hearly
  · rw [harmed] at hunarmed; cases hunarmed
  · exact hearly hnow

/-! ### Missed ticks coalesce (R83) -/

/-- A timer whose history grew left `DUE` set and moved `NEXT_FIRE` one period for each new entry (R81, R83). -/
theorem TimerRan.fired {s t : State} (h : TimerRan s t) (hlt : s.ticks.length < t.ticks.length) :
    t.due = true ∧ t.nextFire = s.nextFire + (t.ticks.length - s.ticks.length) * s.params.tFrame := by
  obtain ⟨n, hticks, hnext, hdue, -, -⟩ := h
  have hlen : t.ticks.length = s.ticks.length + n := by simp [hticks]
  have hpos : 0 < n := by omega
  refine ⟨by simp [hdue, hpos], ?_⟩
  rw [hnext, hlen, Nat.add_sub_cancel_left]

/-- Settles O17: the space is a run of the timer, and the first POLL after it takes `DUE` away. -/
theorem ticksCoalesce : Obligations.TicksCoalesce := by
  intro d s t hs ht hlt
  cases ht
  obtain ⟨-, hran, -⟩ := spaceFor_elapsed d s hs
  obtain ⟨hdue, hnext⟩ := hran.fired hlt
  refine ⟨hdue, hnext, pollDue (spaceFor d s), pollDue (pollDue (spaceFor d s)), rfl, ?_, rfl, ?_⟩
  · rw [pollDue_eq, hdue]
  · rw [pollDue_eq, pollDue_eq]

/-! ### Operations in which the timer only runs -/

/-- A timer that is on time may not have run at all. -/
theorem TimerRan.refl {s : State} (h : s.Timely) : TimerRan s s :=
  ⟨0, by simp, by simp, by simp, fun _ => rfl, fun ha => ⟨(h ha).2, by simp⟩⟩

theorem emitPulses_ran (ps : List Pulse) (s : State) (h : s.Timely) : TimerRan s (emitPulses ps s) := by
  cases ps with
  | nil => exact TimerRan.refl h
  | cons p ps => exact (emitPulses_elapsed p ps s h).2.1

theorem statusPulse_ran (s : State) (h : s.Timely) : TimerRan s (statusPulse s) := by
  cases hs : s.params.hasStatus with
  | false => rw [statusPulse_none s hs]; exact TimerRan.refl h
  | true => exact (statusPulse_elapsed s hs h).2.1

/-- A WAIT ends by a spurious wake no later than the next TICK, with that one TICK, or not at all (R127). -/
theorem sleepUntilWoken_ran (s : State) : TimerRan s (sleepUntilWoken s) := by
  rcases sleepUntilWoken_cases s with ⟨x, -, hx, e⟩ | ⟨ha, -, e⟩ | ⟨hu, -, e⟩ <;> rw [e, drawWake_frame]
  · exact ⟨0, by simp, by simp, by simp, fun _ => rfl, fun ha => ⟨hx ha, by simp⟩⟩
  · exact ⟨1, by simp, by simp, by simp, by simp [ha], fun _ => ⟨Nat.le_add_right _ _, by simp⟩⟩
  · exact ⟨0, by simp, by simp, by simp, fun _ => rfl, by simp [hu]⟩

/-! ### The fixed rate (R82) -/

/-- The law is kept while the timer runs: its firings continue the arithmetic progression from ARM on. -/
theorem FixedRate.ran {tArm : Nat} {s t : State} (h : FixedRate tArm s) (hr : TimerRan s t) (hp : t.params = s.params) :
    FixedRate tArm t := by
  obtain ⟨hnext, hticks⟩ := h
  obtain ⟨n, rticks, rnext, -, -, -⟩ := hr
  have hlen : t.ticks.length = s.ticks.length + n := by simp [rticks]
  refine ⟨?_, ?_⟩
  · rw [rnext, hnext, hlen, hp]; ring
  · have hcont : ∀ k, s.nextFire + k * s.params.tFrame = tArm + (s.ticks.length + k + 1) * s.params.tFrame := fun k => by
      rw [hnext]; ring
    rw [hlen, hp, List.range_add, List.map_append, ← hticks, rticks]
    simp [hcont, Function.comp_def]

theorem FixedRate.settleTick {tArm : Nat} {s : State} (h : FixedRate tArm s) (ht : s.Timely) :
    FixedRate tArm (settleTick s) :=
  h.ran (settleTick_elapsed s ht).2.1 (settleTick_params s)

/-- A successful ARM starts the law at its own time (R80). -/
theorem FixedRate.arm {s : State} (hq : s.ticks = []) :
    FixedRate s.now { s with armed := true, nextFire := s.now + s.params.tFrame, ret := true } := by
  simp [FixedRate, hq]

/-- Past ARM a move of the main context moves the firings only by letting the timer run. -/
theorem FixedRate.move {tArm : Nat} {s t : State} (hf : FixedRate tArm s) (h : BlockInv s) (hh : s.halted = false)
    (ha : s.armed = true) (hm : MainMove s t) : FixedRate tArm t := by
  have ht : s.Timely := h.isTimely
  cases hm with
  | carcfg _ _ | darken _ | fail _ _ | noPair _ _ => exact hf
  | arm hc _ =>
    have hiff := h.armed_iff
    rw [hc, ha] at hiff
    cases hiff
  | status _ =>
    have hu : FixedRate tArm (statusPulse s) := hf.ran (statusPulse_ran s ht) (statusPulse_params s)
    exact FixedRate.settleTick (s := toWait (statusPulse s)) hu h.statusPulse.isTimely
  | wake hc =>
    have hu : FixedRate tArm (sleepUntilWoken s) := hf.ran (sleepUntilWoken_ran s) (sleepUntilWoken_params s)
    exact hu.settleTick (h.sleepUntilWoken hh hc).isTimely
  | serve _ _ =>
    obtain ⟨-, hran, -⟩ := enterService_elapsed { s with due := false, ret := true } ht
    exact FixedRate.ran (s := { s with due := false, ret := true }) hf hran (enterService_params _)
  | pollNothing _ _ | sample _ | pass _ _ | suppress _ _ | encode _ => exact FixedRate.settleTick hf ht
  | mark p _ _ => exact FixedRate.ran (s := s) hf (markFor_elapsed p.mark s ht).2.1 (markFor_params p.mark s)
  | space p _ _ _ => exact FixedRate.ran (s := s) hf (spaceFor_elapsed p.space s ht).2.1 (spaceFor_params p.space s)
  | lastSpace p _ _ _ =>
    have hu : FixedRate tArm (spaceFor p.space s) :=
      hf.ran (spaceFor_elapsed p.space s ht).2.1 (spaceFor_params p.space s)
    exact FixedRate.settleTick (s := toWait (nextSlot (spaceFor p.space s))) hu (h.spaceFor p.space).isTimely

/-- Every step that leaves the block armed keeps the law: a presented word is a run of pulses, and reset disarms. -/
theorem FixedRate.step {tArm : Nat} {s t : State} (hf : FixedRate tArm s) (h : BlockInv s) (ha : s.armed = true)
    (hst : Machine.step s = .next t) (hta : t.armed = true) : FixedRate tArm t := by
  rcases step_cases hst with ⟨-, rfl⟩ | ⟨-, hh, ⟨_, _, _, -, hi, he⟩ | ⟨-, hm⟩⟩
  · cases hta
  · obtain ⟨ps, hps⟩ := exec_item (decodeTableWord_item hi) { s with port := none }
    rw [hps] at he
    cases he
    exact FixedRate.ran (s := { s with port := none }) hf (emitPulses_ran ps _ h.isTimely) (emitPulses_params ps _)
  · exact hf.move h hh ha hm

/-- Settles O18: ARM establishes the law, and every step of the armed block keeps it. -/
theorem fixedRateKept : Obligations.FixedRateKept := by
  refine ⟨fun s t hok hq ht => ?_, fun _ _ _ h ha hf hst hta => hf.step h ha hst hta⟩
  rw [(armResult s).1 hok] at ht
  cases ht
  exact FixedRate.arm hq

end Sys2Proof.Machine
end

section
/-! PROOF. The sampler (O19, O20): a snapshot's bits are the list they are taken from, and each bit of the bank read is its line's
level at the sampling instant or just before it. -/

namespace Sys2Proof.Machine

open Sys2Proof

/-! ### The bits of a snapshot (spec/30_encoding.md R63) -/

/-- Twelve bits made a snapshot and listed again, bit 11 first, are the same bits. -/
theorem snapshotOrder_snapshotOfBits {bits : List Bool} (h : bits.length = 12) : snapshotOrder (snapshotOfBits bits) = bits := by
  obtain ⟨hsyms, -⟩ := wordSyms_of_readBits (readBits_symOf bits 0)
  rw [List.length_map, h] at hsyms
  rw [snapshotOfBits]
  generalize bits.foldl (fun (acc : Nat) (b : Bool) => 2 * acc + b.toNat) 0 = n at hsyms
  refine symOf_injective.list_map (Eq.trans ?_ hsyms.symm)
  rw [snapshotOrder, wordSyms, List.map_map]
  refine List.map_congr_left fun j _ => ?_
  have hj : 11 - j < 12 := by omega
  rw [Function.comp_apply, BitVec.getLsbD_ofNat, decide_eq_true hj, Bool.true_and]

/-- The Channel Map has twelve elements (spec/10_state.md R15). -/
theorem channelMap_length_of_mapOk {p : Params} (h : p.mapOk = true) : p.channelMap.length = 12 := by
  simp only [Params.mapOk, Bool.and_eq_true, decide_eq_true_eq] at h
  obtain ⟨⟨⟨hlength, -⟩, -⟩, -⟩ := h
  exact hlength

/-- Bit `11-k` of a snapshot is the inverse of the line the map's element `k` names (R63, R90). -/
theorem snapshotOf_bit {w : Nat} {channels : List Nat} (raw : BitVec w) (h : channels.length = 12) {k : Nat} (hk : k < 12) :
    (snapshotOf channels raw).getLsbD (11 - k) = !raw.getLsbD (channels.getD k 0) := by
  have hlen : (snapshotBits channels raw).length = 12 := by rw [snapshotBits, List.length_map, h]
  have hlt : k < channels.length := by omega
  have hget := snapshotOrder_get (snapshotOf channels raw) hk
  rw [snapshotOf, snapshotOrder_snapshotOfBits hlen, ← snapshotOf] at hget
  refine Option.some.inj (hget.symm.trans ?_)
  simp [snapshotBits, hlt]

/-! ### The bank read (spec/20_memory.md R41, spec/41_sampler.md R90 (d)) -/

/-- A bit of two words merged by a mask is the first word's where the mask is set, else the second's. -/
theorem getLsbD_merge {w : Nat} (new old mask : BitVec w) (i : Nat) :
    ((new &&& mask) ||| (old &&& ~~~mask)).getLsbD i = if mask.getLsbD i then new.getLsbD i else old.getLsbD i := by
  rw [BitVec.getLsbD_or, BitVec.getLsbD_and, BitVec.getLsbD_and, BitVec.getLsbD_not]
  cases mask.getLsbD i with
  | true => simp
  | false => simpa using BitVec.lt_of_getLsbD

/-- Each line is read at its level at `NOW` or just before it, as its bit of the free mask says (log 4). -/
theorem bankRead_bit (s : State) (i : Nat) :
    (bankRead s).getLsbD i = (inRaw s s.now).getLsbD i ∨ (bankRead s).getLsbD i = (inRawBefore s s.now).getLsbD i := by
  by_cases hsteady : inRawBefore s s.now = inRaw s s.now
  · rw [bankRead, if_pos hsteady]
    exact .inl rfl
  · rw [bankRead, if_neg hsteady, getLsbD_merge]
    exact ite_eq_or_eq _ _ _

/-! ### The obligations -/

/-- Settles O20: SAMPLE inverts the bank read bit by bit, and each bit of the bank read is its line's new or old level. -/
theorem sampleChangingLines : Obligations.SampleChangingLines := by
  intro s hmap
  refine ⟨snapshotOf s.params.channelMap (bankRead s), rfl, fun k hk => ?_⟩
  rw [snapshotOf_bit (bankRead s) (channelMap_length_of_mapOk hmap) hk]
  exact (bankRead_bit s _).imp (congrArg (!·)) (congrArg (!·))

/-- Settles O19: the lines' levels before and at a steady instant are the same. -/
theorem sampleSteadyLines : Obligations.SampleSteadyLines := by
  intro s hmap hsteady
  obtain ⟨v, hexec, hbits⟩ := sampleChangingLines s hmap
  refine ⟨v, hexec, fun k hk => ?_⟩
  have hbit := hbits k hk
  rwa [hsteady, or_self] at hbit

end Sys2Proof.Machine
end

section
/-! PROOF. The idle gate (O21, O22): on zero snapshots GATE only counts, so its answers are the comparison at successive counts. -/

namespace Sys2Proof.Machine

open Sys2Proof

/-! ### The counter and the decision (spec/42_idle_gate.md R95) -/

theorem idleCount_of_ne_zero {v : Snapshot} (hv : v ≠ 0) (cnt : Nat) : idleCount v cnt = 0 := if_pos hv

@[simp] theorem idleCount_zero (cnt : Nat) : idleCount 0 cnt = cnt + 1 := rfl

theorem gateTransmit_of_ne_zero (p : Params) {v : Snapshot} (hv : v ≠ 0) (cnt : Nat) : gateTransmit p v cnt = true := if_pos hv

/-- The normative reading compares the counter after the increment. -/
theorem gateTransmit_zero_post {p : Params} (hp : p.idleComparePre = false) (cnt : Nat) :
    gateTransmit p 0 cnt = decide (cnt + 1 < p.idleThreshold) := by
  simp [gateTransmit, hp]

/-- The losing reading of C4 compares the counter before the increment. -/
theorem gateTransmit_zero_pre {p : Params} (hp : p.idleComparePre = true) (cnt : Nat) :
    gateTransmit p 0 cnt = decide (cnt < p.idleThreshold) := by
  simp [gateTransmit, hp]

/-- On the zero snapshot GATE counts and answers its decision. -/
theorem exec_gate_of_snap_eq_zero {s : State} (hs : s.snap = 0) :
    exec .gate s = .next { s with idleCnt := s.idleCnt + 1, ret := gateTransmit s.params 0 s.idleCnt } := by
  rw [exec_gate (idleGate_ret s), idleGate_idleCnt, hs, idleCount_zero]

/-! ### Successive zero snapshots (R96) -/

theorem gateRun_succ (k : Nat) (s : State) : gateRun (k + 1) s = (idleGate s).ret :: gateRun k (idleGate s) := rfl

/-- The answers on zero snapshots are GATE's decisions at the successive counts, from the counter's value on. -/
theorem gateRun_of_snap_eq_zero {s : State} (hs : s.snap = 0) (K : Nat) :
    gateRun K s = (List.range K).map fun k => gateTransmit s.params 0 (s.idleCnt + k) := by
  induction K generalizing s with
  | zero => rfl
  | succ K ih =>
    have hcnt : (idleGate s).idleCnt = s.idleCnt + 1 := by rw [idleGate_idleCnt, hs, idleCount_zero]
    rw [gateRun_succ, ih (s := idleGate s) hs, idleGate_ret, idleGate_params, hcnt, hs, List.range_succ_eq_map]
    simp [Function.comp_def, Nat.add_assoc, Nat.add_comm 1]

/-- Of the first `K` numbers, `min K m` are below `m`. -/
theorem count_true_range_lt (K m : Nat) : ((List.range K).map fun k => decide (k < m)).count true = min K m := by
  induction K with
  | zero => simp
  | succ K ih =>
    rw [List.range_succ, List.map_append, List.count_append, ih, List.map_singleton, List.count_singleton]
    simp only [beq_true, decide_eq_true_eq]
    split
    case isTrue hK => omega
    case isFalse hK => omega

/-! ### The obligations -/

/-- Settles O21: a non-zero snapshot, then the zero snapshot under each reading of C4. -/
theorem gateRule : Obligations.GateRule := by
  intro s
  refine ⟨fun hs => ?_, fun hs hp => ?_, fun hs hp => ?_, rfl⟩
  · have hret : (idleGate s).ret = true := gateTransmit_of_ne_zero s.params hs s.idleCnt
    rw [exec_gate hret, idleGate_idleCnt, idleCount_of_ne_zero hs]
  · rw [exec_gate_of_snap_eq_zero hs, gateTransmit_zero_post hp]
  · rw [exec_gate_of_snap_eq_zero hs, gateTransmit_zero_pre hp]

/-- Settles O22: from counter 0 the `k`-th answer, from 0 on, compares `k + 1`, or `k` itself, with the threshold. -/
theorem idleCountingLaw : Obligations.IdleCountingLaw := by
  intro s K hs hcnt _
  have hrun := gateRun_of_snap_eq_zero hs K
  simp only [hcnt, Nat.zero_add] at hrun
  refine ⟨fun hp => ?_, fun hp => ?_⟩
  · simp only [gateTransmit_zero_post hp] at hrun
    refine ⟨hrun, ?_⟩
    have hfirst := count_true_range_lt K (s.params.idleThreshold - 1)
    simp only [Nat.lt_sub_iff_add_lt] at hfirst
    rw [hrun, hfirst]
  · simp only [gateTransmit_zero_pre hp] at hrun
    exact ⟨hrun, hrun ▸ count_true_range_lt K s.params.idleThreshold⟩

end Sys2Proof.Machine
end

section
/-! PROOF. The encoder (O6, O23): distinct snapshots differ in a data bit and so in its complement, and ENCODE writes the frame of the
snapshot. -/

namespace Sys2Proof

/-- The frame word holds its snapshot, so distinct snapshots have distinct frame words (R102). -/
theorem frameWord_injective : Function.Injective frameWord :=
  Function.LeftInverse.injective (g := BitVec.extractLsb' 12 12) frameWord_data

namespace Machine

/-! ### Distinct snapshots on the wire (spec/43_encoder.md R102) -/

/-- With the zero's mark the shorter, the two bit pairs differ: the receiver tells them apart by the mark (R5 (b), R71). -/
theorem dur_symOf_injective {p : Params} (h : p.bitsOk = true) : Function.Injective fun b => p.dur (symOf b) := by
  intro b c hbc
  have hsym : Except.ok (symOf b) = Except.ok (symOf c) :=
    calc Except.ok (symOf b) = symOfMark p (p.dur (symOf b)).mark := (symOfMark_dur h b).symm
      _ = symOfMark p (p.dur (symOf c)).mark := congrArg (fun q : Pulse => symOfMark p q.mark) hbc
      _ = Except.ok (symOf c) := symOfMark_dur h c
  exact symOf_injective (Except.ok.inj hsym)

/-- Distinct snapshots differ in a bit, here by its place `j` in the order the bits go out (R65). -/
theorem exists_sent_bit_ne {v w : Snapshot} (h : v ≠ w) : ∃ j < 12, v.getLsbD (11 - j) ≠ w.getLsbD (11 - j) := by
  by_contra! hsame
  refine h (BitVec.eq_of_getLsbD_eq fun i hi => ?_)
  have hbit := hsame (11 - i) (by omega)
  rwa [show 11 - (11 - i) = i by omega] at hbit

/-- Settles O6: a bit in which the snapshots differ sets the data slot apart, and its complement the check slot. -/
theorem encodingInjective : Obligations.EncodingInjective := by
  intro p v w hp hne
  obtain ⟨j, hj, hbit⟩ := exists_sent_bit_ne hne
  refine ⟨frameWord_injective.ne hne, j, hj, ?_, ?_⟩
  · rw [pulseList_data p v hj, pulseList_data p w hj]
    exact fun hslot => hbit (dur_symOf_injective hp (Option.some.inj hslot))
  · rw [pulseList_check p v hj, pulseList_check p w hj]
    exact fun hslot => hbit (Bool.not_injective (dur_symOf_injective hp (Option.some.inj hslot)))

/-! ### ENCODE (spec/43_encoder.md R100) -/

theorem exec_encode (s : State) :
    exec .encode s = .next { s with txw := frameWord s.snap, plist := pulseList s.params s.snap } := rfl

/-- Settles O23: the word's fields by R64 and R65, and the pulse list pair by pair by R66. -/
theorem encodeWritesFrame : Obligations.EncodeWritesFrame := by
  intro s
  obtain ⟨hcheck, -⟩ := frameWordAndCheckField s.snap
  obtain ⟨hlayout, -⟩ := pulseListLayout s.params s.snap
  refine ⟨frameWord s.snap, pulseList s.params s.snap, exec_encode s, frameWord_id_bit s.snap, frameWord_data s.snap,
    (frameWord_check s.snap).trans hcheck, hlayout.trans (congrArg (_ :: ·) (List.map_congr_left fun k _ => ?_))⟩
  cases (frameWord s.snap).getLsbD (25 - k) with
  | false => rfl
  | true => rfl

end Machine

end Sys2Proof
end

section
/-! PROOF. The operations of the modulator (O24 to O28) and the line outside marks (O53): the level a mark or a space writes is the
level at every time from its start on, and a level of 0 leaves envelope and line dark. -/

namespace Sys2Proof.Machine

open Sys2Proof

/-! ### CARCFG and SETLVL (spec/44_modulator.md R110, R111) -/

/-- A well-formed parameter set meets CARCFG's `require` (R110). -/
theorem carrier_of_wf {p : Params} (h : p.wf = true) : 2 ≤ p.carWrap ∧ 0 < p.carOn ∧ p.carOn < p.carWrap := by
  simp only [Params.wf, Params.carrierOk, Bool.and_eq_true, decide_eq_true_eq] at h
  obtain ⟨-, ⟨hwrap, hpos⟩, hlt⟩ := h
  exact ⟨hwrap, hpos, hlt⟩

theorem exec_carcfg_of_wf {s : State} (h : s.params.wf = true) : exec .carcfg s = .next (deriveCarrier s) := if_pos h

theorem exec_carcfg_of_malformed {s : State} (h : s.params.wf = false) : exec .carcfg s = .refused .malformedParams :=
  if_neg (by simp [h])

theorem exec_init_of_malformed {s : State} (h : s.params.wf = false) : exec .init s = .refused .malformedParams :=
  if_neg (by simp [h])

/-- Settles O24: the constants CARCFG writes are the ones R110's `require` was checked of. -/
theorem carcfgDerivesOrRefuses : Obligations.CarcfgDerivesOrRefuses := by
  refine fun s => ⟨fun hwf => ?_, fun hwf => ⟨exec_carcfg_of_malformed hwf, exec_init_of_malformed hwf⟩⟩
  obtain ⟨hwrap, hpos, hlt⟩ := carrier_of_wf hwf
  exact ⟨hwrap, hpos, hlt, exec_carcfg_of_wf hwf⟩

/-- Settles O25: the two operands SETLVL has. -/
theorem setlvlWritesLevel : Obligations.SetlvlWritesLevel := fun _ => ⟨rfl, rfl⟩

/-! ### The level in a mark and in a space (R26, R112, R113) -/

@[simp] theorem markFor_trace (d : Nat) (s : State) : (markFor d s).trace = s.trace ++ [(s.now, s.carOn)] := by simp [markFor]

@[simp] theorem spaceFor_trace (d : Nat) (s : State) : (spaceFor d s).trace = s.trace ++ [(s.now, 0)] := by simp [spaceFor]

/-- From a mark's start on the level is `CAR_ON`. -/
theorem markFor_levelAt (d : Nat) (s : State) {x : Nat} (h : s.now ≤ x) : levelAt (markFor d s) x = s.carOn := by
  rw [levelAt, markFor_trace, lastAt_append, if_pos h]

/-- From a space's start on the level is 0. -/
theorem spaceFor_levelAt (d : Nat) (s : State) {x : Nat} (h : s.now ≤ x) : levelAt (spaceFor d s) x = 0 := by
  rw [levelAt, spaceFor_trace, lastAt_append, if_pos h]

/-- A level of 0 is an envelope and a line of 0: no counter value is below it (R116). -/
theorem dark_of_levelAt_zero {s : State} {x : Nat} (h : levelAt s x = 0) : envelopeAt s x = false ∧ irOutAt s x = false := by
  simp [envelopeAt, irOutAt, h]

/-- Settles O26: the wait is exact, and the level in it is `CAR_ON`. -/
theorem markHoldsCarrier : Obligations.MarkHoldsCarrier := by
  refine fun d s hs => ⟨markFor d s, rfl, markFor_elapsed d s hs, fun hon x hfrom _ => ?_⟩
  simp [envelopeAt, markFor_levelAt d s hfrom, hon.ne']

/-- Settles O27: the wait is exact, and the level in it is 0. -/
theorem spaceSilences : Obligations.SpaceSilences := fun d s hs =>
  ⟨spaceFor d s, rfl, spaceFor_elapsed d s hs, fun _ hfrom _ => dark_of_levelAt_zero (spaceFor_levelAt d s hfrom)⟩

/-- Settles O28: PULSE is the composition of the two operations. -/
theorem pulseIsMarkThenSpace : Obligations.PulseIsMarkThenSpace := fun m sp s hs =>
  ⟨markFor m s, pulseFor ⟨m, sp⟩ s, rfl, rfl, rfl, pulseFor_elapsed ⟨m, sp⟩ s hs⟩

/-! ### The line outside marks (R118) -/

/-- Once every event of a history has passed, its value is the last event's. -/
theorem lastAt_of_allBy {α : Type} (d : α) {log : List (Nat × α)} {t : Nat} (h : AllBy log t) :
    lastAt d log t = (log.getLast?.map Prod.snd).getD d := by
  induction log using List.reverseRecOn with
  | nil => rfl
  | append_singleton log e _ =>
    have he : e.1 ≤ t := h e (by simp)
    simp [lastAt_append, he]

/-- In a state of the invariant the level read from the history now is `CAR_LEVEL` (R26). -/
theorem BlockInv.levelAt_now {s : State} (h : BlockInv s) : levelAt s s.now = s.carLevel :=
  (lastAt_of_allBy 0 h.trace_past).trans h.level_traced.symm

/-- Settles O53: outside marks the level is 0, and the history says so too. -/
theorem lineAtRestOutsideMarks : Obligations.LineAtRestOutsideMarks := by
  intro s h hc
  have hlevel : s.carLevel = 0 := h.dark hc
  exact ⟨hlevel, dark_of_levelAt_zero (h.levelAt_now.trans hlevel)⟩

end Sys2Proof.Machine
end

section
/-! PROOF. The carrier in a mark (O31, O32). Over whole periods of a counter, the values below `w` come up `w` times a period,
wherever the counting begins: with `w = CAR_ON` this is the duty cycle, with `w = 1` the number of period starts. Inside a mark the
line rises exactly at the period starts, and once more at most, at the mark's own start. -/

namespace Sys2Proof.Machine

open Sys2Proof

/-! ### Counting over periods -/

theorem length_filter_range (f : Nat → Bool) (n : Nat) : ((List.range n).filter f).length = Nat.count (fun i => f i = true) n := by
  simp [Nat.count, List.countP_eq_length_filter]

/-- Any `P` successive values hold as many of a predicate of period `P` as the first `P` do. -/
theorem count_window_of_periodic {p : Nat → Prop} [DecidablePred p] {P : Nat} (hp : ∀ m, p (P + m) ↔ p m) (a : Nat) :
    Nat.count (fun k => p (a + k)) P = Nat.count p P := by
  have hshift : Nat.count (fun k => p (P + k)) a = Nat.count p a := by simp only [hp]
  have hfront := Nat.count_add p a P
  have hback := Nat.count_add p P a
  rw [Nat.add_comm P a, hshift] at hback
  omega

/-- In one period of a counter, `w` values are below `w`. -/
theorem count_mod_lt_period {P w : Nat} (h : w ≤ P) (c : Nat) : Nat.count (fun i => (c + i) % P < w) P = w := by
  have hfirst : {i ∈ Finset.range P | i % P < w} = Finset.range w := by
    ext i
    simp only [Finset.mem_filter, Finset.mem_range]
    refine ⟨fun ⟨hi, hlow⟩ => by rwa [Nat.mod_eq_of_lt hi] at hlow, fun hi => ?_⟩
    have hiP : i < P := hi.trans_le h
    exact ⟨hiP, by rwa [Nat.mod_eq_of_lt hiP]⟩
  calc Nat.count (fun i => (c + i) % P < w) P
      = Nat.count (fun i => i % P < w) P := count_window_of_periodic (p := fun i => i % P < w) (fun m => by simp) c
    _ = w := by rw [Nat.count_eq_card_filter_range, hfirst, Finset.card_range]

/-- In `q` periods of a counter, `q * w` values are below `w`. -/
theorem count_mod_lt_periods {P w : Nat} (h : w ≤ P) (c q : Nat) : Nat.count (fun i => (c + i) % P < w) (q * P) = q * w := by
  induction q with
  | zero => simp
  | succ q ih =>
    simp only [Nat.succ_mul, Nat.count_add, ih, ← Nat.add_assoc, count_mod_lt_period h]

/-! ### The square wave (spec/44_modulator.md R116) -/

/-- In a mark the line is the carrier at the PWM tick of the time (R116). -/
theorem markFor_irOutAt (d : Nat) (s : State) {x : Nat} (h : s.now ≤ x) :
    irOutAt (markFor d s) x = carrierHigh s (pwmTicks s.params x) := by
  simp [irOutAt, carCntAt, carrierHigh, markFor_levelAt d s h]

/-- Settles O31: the comparator's two sides, the counter's period and the values below `CAR_ON` in one period. -/
theorem carrierSquareWave : Obligations.CarrierSquareWave := by
  refine fun s hlt => ⟨fun d t ht x hfrom _ => ?_, fun j => ⟨rfl, ?_, ?_⟩⟩
  · cases ht
    exact markFor_irOutAt d s hfrom
  · simp [carrierHigh, ← Nat.add_assoc]
  · rw [length_filter_range]
    simp only [carrierHigh, decide_eq_true_eq, ← Nat.add_assoc]
    exact count_mod_lt_period hlt.le (s.carPhi + j)

/-! ### Rising edges (spec/44_modulator.md R117) -/

/-- How many carrier periods begin in the `n` PWM ticks from `j` on. -/
def periodStarts (s : State) (j n : Nat) : Nat := Nat.count (fun i => (s.carPhi + j + i) % s.carWrap < 1) n

/-- A counter is at 0 exactly where it falls below `w` from `w` or above. -/
theorem mod_succ_lt_one_iff {P w : Nat} (hpos : 0 < w) (hlt : w < P) (m : Nat) :
    (m + 1) % P < 1 ↔ (m + 1) % P < w ∧ ¬ m % P < w := by
  have hm : m % P < P := Nat.mod_lt m (hpos.trans hlt)
  rw [← Nat.mod_add_mod]
  obtain hnext | hlast := Nat.lt_or_eq_of_le (Nat.succ_le_of_lt hm)
  · rw [Nat.mod_eq_of_lt hnext]
    omega
  · rw [show m % P + 1 = P from hlast, Nat.mod_self]
    omega

section
variable {s : State} (hpos : 0 < s.carOn) (hlt : s.carOn < s.carWrap)
include hpos hlt

/-- Within a mark the line rises exactly where a carrier period begins. -/
theorem carrierHigh_rises_iff (j i : Nat) :
    (carrierHigh s (j + (i + 1)) && !carrierHigh s (j + i)) = true ↔ (s.carPhi + j + (i + 1)) % s.carWrap < 1 := by
  simp only [carrierHigh, Bool.and_eq_true, Bool.not_eq_true', decide_eq_true_eq, decide_eq_false_iff_not, ← Nat.add_assoc]
  exact (mod_succ_lt_one_iff hpos hlt (s.carPhi + j + i)).symm

/-- The edges of a mark: one at its start if the carrier is high there, and one at each later period start. -/
theorem risingEdges_succ (j n : Nat) :
    risingEdges s j (n + 1)
      = Nat.count (fun i => (s.carPhi + j + (i + 1)) % s.carWrap < 1) n + if carrierHigh s j = true then 1 else 0 := by
  rw [risingEdges, length_filter_range, Nat.count_succ']
  have hinside : ∀ i, (carrierHigh s (j + (i + 1)) && (i + 1 == 0 || !carrierHigh s (j + (i + 1) - 1))) = true
      ↔ (s.carPhi + j + (i + 1)) % s.carWrap < 1 := fun i => by simpa using carrierHigh_rises_iff hpos hlt j i
  simp only [hinside]
  simp

/-- Each period start in a mark is a rising edge, and there is at most one other, at the mark's start. -/
theorem risingEdges_bounds (j n : Nat) : periodStarts s j n ≤ risingEdges s j n ∧ risingEdges s j n ≤ periodStarts s j n + 1 := by
  cases n with
  | zero => simp [periodStarts, risingEdges]
  | succ n =>
    have hstart : (s.carPhi + j + 0) % s.carWrap < 1 → carrierHigh s j = true := fun h => by
      simpa [carrierHigh] using h.trans_le hpos
    rw [risingEdges_succ hpos hlt, periodStarts, Nat.count_succ']
    split <;> split
    case isTrue.isFalse h0 hlow => exact absurd (hstart h0) hlow
    all_goals omega

end

/-- A stretch of `n` ticks holds `floor(n / P)` whole periods and fits in `ceil(n / P)` of them. -/
theorem periodStarts_bounds {s : State} (hwrap : 0 < s.carWrap) (j n : Nat) :
    n / s.carWrap ≤ periodStarts s j n ∧ periodStarts s j n ≤ (n + s.carWrap - 1) / s.carWrap := by
  have hperiods : ∀ q, periodStarts s j (q * s.carWrap) = q := fun q =>
    (count_mod_lt_periods hwrap (s.carPhi + j) q).trans (Nat.mul_one q)
  have hmono : Monotone (periodStarts s j) := Nat.count_monotone _
  constructor
  · calc n / s.carWrap = periodStarts s j (n / s.carWrap * s.carWrap) := (hperiods _).symm
      _ ≤ periodStarts s j n := hmono (Nat.div_mul_le_self n s.carWrap)
  · have hfits : n ≤ (n + s.carWrap - 1) / s.carWrap * s.carWrap := by
      have hrest := Nat.lt_div_mul_add (a := n + s.carWrap - 1) hwrap
      omega
    calc periodStarts s j n ≤ periodStarts s j ((n + s.carWrap - 1) / s.carWrap * s.carWrap) := hmono hfits
      _ = (n + s.carWrap - 1) / s.carWrap := hperiods _

/-- Settles O32: the edges are the period starts, up to one at the mark's start, and those are one a period. -/
theorem risingEdgesBound : Obligations.RisingEdgesBound := by
  intro s j n hpos hlt
  obtain ⟨hfloor, hceil⟩ := periodStarts_bounds (hpos.trans hlt) j n
  obtain ⟨hleast, hmost⟩ := risingEdges_bounds hpos hlt j n
  exact ⟨hfloor.trans hleast, hmost.trans (Nat.succ_le_succ hceil)⟩

end Sys2Proof.Machine
end

section
/-! SUPPORT. The steps of a running block as equations: the step at a control position is its operation and what `afterOp` says, and
the machine's run goes on from each next state. -/

namespace Sys2Proof.Machine

open Sys2Proof

/-! ### The step at a control position (R132) -/

/-- Out of reset and HALT and with no word presented, the step is the main context's. -/
theorem step_of_running {s : State} (h : Running s) : step s = mainStep s := by
  obtain ⟨hreset, hhalted, hport⟩ := h
  simp [step, runStep, hreset, hhalted, hport]

/-- The step executes the position's operation and goes on as `afterOp` says. -/
theorem step_eq_afterOp {s u : State} {c : Ctl} (i : Instr) (h : Running s) (hc : s.ctl = c) (hi : nextOp s = some i)
    (he : exec i (beforeOp s) = .next u) : step s = .next (afterOp c u) := by
  subst hc
  simp only [step_of_running h, mainStep, hi, he]

/-- Past the start of INIT nothing comes before the operation. -/
theorem step_eq_afterOp_of_ne_boot {s u : State} {c : Ctl} (i : Instr) (h : Running s) (hc : s.ctl = c) (hb : c ≠ .boot)
    (hi : nextOp s = some i) (he : exec i s = .next u) : step s = .next (afterOp c u) := by
  have hbefore : beforeOp s = s := if_neg (hc ▸ hb)
  exact step_eq_afterOp i h hc hi (by rw [hbefore, he])

/-- INIT begins with CARCFG, in its own phase (R125). -/
theorem step_at_boot {s : State} (h : Running s) (hc : s.ctl = .boot) (hw : s.params.wf = true) :
    step s = .next { deriveCarrier { s with phase := .init } with ctl := .initLevel } := by
  have hbefore : beforeOp s = { s with phase := .init } := if_pos hc
  refine step_eq_afterOp .carcfg h hc (by simp [nextOp, hc]) (u := deriveCarrier { s with phase := .init }) ?_
  rw [hbefore]
  exact exec_carcfg_of_wf hw

theorem exec_poll_of_due {s : State} (h : s.due = true) : exec .poll s = .next { s with due := false, ret := true } :=
  congrArg Host.Outcome.next (by rw [pollDue_eq, h])

theorem exec_poll_of_not_due {s : State} (h : s.due = false) : exec .poll s = .next { s with due := false, ret := false } :=
  congrArg Host.Outcome.next (by rw [pollDue_eq, h])

section
variable {s : State} (h : Running s)
include h

theorem step_at_initLevel (hc : s.ctl = .initLevel) : step s = .next { setLevel 0 s with ctl := .initArm } :=
  step_eq_afterOp_of_ne_boot (.setlvl .off) h hc (by decide) (by simp [nextOp, hc]) rfl

theorem step_at_initArm (hc : s.ctl = .initArm) : step s = .next (afterOp .initArm (armTimer s)) :=
  step_eq_afterOp_of_ne_boot .arm h hc (by decide) (by simp [nextOp, hc]) rfl

theorem step_at_initStatus (hc : s.ctl = .initStatus) : step s = .next (settleTick (toWait (statusPulse s))) :=
  step_eq_afterOp_of_ne_boot .status h hc (by decide) (by simp [nextOp, hc]) rfl

theorem step_at_wait (hc : s.ctl = .wait) : step s = .next (settleTick (sleepUntilWoken s)) :=
  step_eq_afterOp_of_ne_boot .wait h hc (by decide) (by simp [nextOp, hc]) rfl

theorem step_at_poll_of_due (hc : s.ctl = .poll) (hd : s.due = true) :
    step s = .next { enterService { s with due := false, ret := true } with ctl := .sample } :=
  step_eq_afterOp_of_ne_boot .poll h hc (by decide) (by simp [nextOp, hc]) (exec_poll_of_due hd)

theorem step_at_poll_of_not_due (hc : s.ctl = .poll) (hd : s.due = false) :
    step s = .next (settleTick (toWait { s with due := false, ret := false })) :=
  step_eq_afterOp_of_ne_boot .poll h hc (by decide) (by simp [nextOp, hc]) (exec_poll_of_not_due hd)

theorem step_at_sample (hc : s.ctl = .sample) : step s = .next (settleTick { sampleInputs s with ctl := .gate }) :=
  step_eq_afterOp_of_ne_boot .sample h hc (by decide) (by simp [nextOp, hc]) rfl

theorem step_at_gate (hc : s.ctl = .gate) : step s = .next (afterOp .gate (idleGate s)) :=
  step_eq_afterOp_of_ne_boot .gate h hc (by decide) (by simp [nextOp, hc]) rfl

theorem step_at_encode (hc : s.ctl = .encode) :
    step s = .next (settleTick { startFrame (encodeSnapshot s) with ctl := .mark }) :=
  step_eq_afterOp_of_ne_boot .encode h hc (by decide) (by simp [nextOp, hc]) rfl

theorem step_at_mark {p : Pulse} (hc : s.ctl = .mark) (hp : s.plist[s.slot]? = some p) :
    step s = .next { markFor p.mark s with ctl := .space } :=
  step_eq_afterOp_of_ne_boot (.mark p.mark) h hc (by decide) (by simp [nextOp, hc, hp]) rfl

theorem step_at_space {p : Pulse} (hc : s.ctl = .space) (hp : s.plist[s.slot]? = some p) :
    step s = .next (afterOp .space (spaceFor p.space s)) :=
  step_eq_afterOp_of_ne_boot (.space p.space) h hc (by decide) (by simp [nextOp, hc, hp]) rfl

end

/-- After a SPACE with a slot after it TXFRAME's loop goes on (R130). -/
theorem afterOp_space_of_lt {t : State} (h : t.slot + 1 < t.plist.length) :
    afterOp .space t = { nextSlot t with ctl := .mark } := if_pos h

/-- After the last SPACE TXFRAME and SERVICE end (R129, R130). -/
theorem afterOp_space_of_not_lt {t : State} (h : ¬ t.slot + 1 < t.plist.length) :
    afterOp .space t = settleTick (toWait (nextSlot t)) := if_neg h

theorem afterOp_gate_of_transmit {t : State} (h : t.ret = true) :
    afterOp .gate t = settleTick { t with ctl := .encode } := by rw [afterOp, if_pos h]

theorem afterOp_gate_of_suppress {t : State} (h : t.ret = false) : afterOp .gate t = settleTick (toWait t) := by
  rw [afterOp, if_neg (by simp [h])]

theorem afterOp_arm_of_armed {t : State} (h : t.ret = true) : afterOp .initArm t = { t with ctl := .initStatus } := if_pos h

theorem afterOp_arm_of_failed {t : State} (h : t.ret = false) : afterOp .initArm t = enterHalt t := if_neg (by simp [h])

/-! ### Runs of the machine -/

/-- A run goes on from the step's next state. -/
theorem run_succ {s t : State} (h : step s = .next t) (k : Nat) :
    Host.Core.run core (k + 1) s = Host.Core.run core k t := by
  have hcore : core.step s = .next t := h
  simp only [Host.Core.run, hcore]

/-- Whether the block is running hangs on reset, HALT and the port only. -/
theorem Running.congr {s t : State} (h : Running s) (hr : t.env.resetIn = s.env.resetIn) (hh : t.halted = s.halted)
    (hp : t.port = s.port) : Running t := by
  obtain ⟨hreset, hhalted, hport⟩ := h
  exact ⟨hr.trans hreset, hh.trans hhalted, hp.trans hport⟩

end Sys2Proof.Machine
end

section
/-! PROOF. The sequencer's single operations (O35 to O39, O43, O46) and the envelope of a frame (O30). -/

namespace Sys2Proof.Machine

open Sys2Proof

/-! ### STATUS (spec/45_sequencer.md R126) -/

/-- The feedback line over the one pulse STATUS gives: active in it, inactive from its end on. -/
theorem lastAt_statusPulse (log : List (Nat × Bool)) {t0 d x : Nat} (h : t0 ≤ x) :
    lastAt false (log ++ [(t0, true), (t0 + d, false)]) x = !decide (t0 + d ≤ x) := by
  have hevents : log ++ [(t0, true), (t0 + d, false)] = (log ++ [(t0, true)]) ++ [(t0 + d, false)] := by simp
  rw [hevents, lastAt_append, lastAt_append, if_pos h]
  by_cases hend : t0 + d ≤ x <;> simp [hend]

/-- Settles O35: the two writes of STATUS stand a pulse's time apart. -/
theorem statusGivesOnePulse : Obligations.StatusGivesOnePulse := by
  refine fun s => ⟨fun h => congrArg Host.Outcome.next (statusPulse_none s h), fun h ht _ => ?_⟩
  have he := statusPulse_elapsed s h ht
  refine ⟨statusPulse s, rfl, he, fun x hfrom hto => ?_, fun x hfrom => ?_⟩
  all_goals
    obtain ⟨-, -, hf, -⟩ := he
    rw [statusAt, hf, lastAt_statusPulse _ (by omega)]
  · simpa using hto
  · simpa using hfrom

/-! ### WAIT, POLL and HALT (R127, R128, R131) -/

/-- Settles O36: of the ways a WAIT can end only the TICK is left. -/
theorem waitEndsAtTick : Obligations.WaitEndsAtTick := by
  intro s ha hlate
  refine congrArg Host.Outcome.next ?_
  rcases sleepUntilWoken_cases s with ⟨x, hx, hle, -⟩ | ⟨-, -, e⟩ | ⟨hu, -⟩
  · have := hlate x hx
    have := hle ha
    omega
  · rw [e, drawWake_frame]
  · rw [ha] at hu; cases hu

/-- Settles O37: of the ways a WAIT can end the first is the spurious wake, the last is none. -/
theorem waitWithoutTick : Obligations.WaitWithoutTick := by
  refine fun s => ⟨fun x hx hle => congrArg Host.Outcome.next ?_, fun hnone hu => congrArg Host.Outcome.next ?_⟩
  · rcases sleepUntilWoken_cases s with ⟨y, hy, -, e⟩ | ⟨ha, hlate, -⟩ | ⟨-, hnone, -⟩
    · obtain rfl : x = y := Option.some.inj (hx.symm.trans hy)
      rw [e, drawWake_frame]
    · have := hlate x hx
      have := hle ha
      omega
    · rw [hnone] at hx; cases hx
  · rcases sleepUntilWoken_cases s with ⟨y, hy, -⟩ | ⟨ha, -⟩ | ⟨-, -, e⟩
    · rw [hnone] at hy; cases hy
    · rw [hu] at ha; cases ha
    · rw [e, drawWake_frame]

/-- Settles O38: POLL's two branches are one equation. -/
theorem pollTestsAndClears : Obligations.PollTestsAndClears := fun s => congrArg Host.Outcome.next (pollDue_eq s)

/-- Settles O43: INIT_FAIL's body. -/
theorem haltEntersHalt : Obligations.HaltEntersHalt := fun _ => rfl

/-- Settles O46: out of reset, HALT comes before everything else. -/
theorem haltedBlockHasNoStep : Obligations.HaltedBlockHasNoStep := fun s hh hr => by simp [step, runStep, hh, hr]

/-! ### The latency draw (R129) -/

/-- A draw is brought into the range whether it is scripted or free. -/
theorem drawLatency_bounded (s : State) : ∃ x, (drawLatency s).1 = boundLatency s.params.lMax x := by
  unfold drawLatency
  split <;> exact ⟨_, rfl⟩

/-- A number of the range is drawn as it stands. -/
theorem boundLatency_of_le {lMax : Option Nat} {x : Nat} (h : ∀ n, lMax = some n → x ≤ n) : boundLatency lMax x = x := by
  match lMax with
  | none => rfl
  | some 0 => exact (Nat.le_zero.mp (h 0 rfl)).symm
  | some (n + 1) => exact Nat.mod_eq_of_lt (Nat.lt_succ_of_le (h (n + 1) rfl))

/-- Settles O39: the bound is kept by every draw, and a script can name any number within it. -/
theorem latencyDrawInRange : Obligations.LatencyDrawInRange := by
  refine fun s => ⟨fun n hn => ?_, fun x hx => boundLatency_of_le hx⟩
  obtain ⟨x, hx⟩ := drawLatency_bounded s
  rw [hx, hn]
  exact boundLatency_le n n x rfl

/-! ### The envelope of a frame (R130) -/

/-- TXFRAME's loop leaves the events of its pulses on the trace, however late the timer is. -/
theorem emitSlots_trace (ps : List Pulse) (s : State) :
    (ps.foldl (fun t p => emitSlot p t) s).trace = s.trace ++ pulseEvents s.carOn s.now ps := by
  induction ps generalizing s with
  | nil => simp [pulseEvents]
  | cons p ps ih =>
    rw [List.foldl_cons, ih]
    simp [emitSlot, pulseEvents]

/-- TXFRAME leaves the events of `PLIST` on the trace. -/
theorem transmitFrame_trace (s : State) : (transmitFrame s).trace = s.trace ++ pulseEvents s.carOn s.now s.plist :=
  emitSlots_trace s.plist (startFrame s)

/-- Within slot `k` of a run of pulses only the slot's own two events decide the level. -/
theorem lastAt_pulseEvents {ps : List Pulse} {k : Nat} {p : Pulse} (hp : ps[k]? = some p) (log : List (Nat × Nat))
    (on t0 x : Nat) (hfrom : t0 + pulseTime (ps.take k) ≤ x)
    (hto : x < t0 + pulseTime (ps.take k) + p.mark + p.space) :
    lastAt 0 (log ++ pulseEvents on t0 ps) x = if t0 + pulseTime (ps.take k) + p.mark ≤ x then 0 else on := by
  have hsplit : ps = ps.take k ++ p :: ps.drop (k + 1) := by
    obtain ⟨hk, rfl⟩ := List.getElem?_eq_some_iff.mp hp
    rw [List.getElem_cons_drop, List.take_append_drop]
  have hevents : log ++ pulseEvents on t0 ps
      = ((log ++ pulseEvents on t0 (ps.take k) ++ [(t0 + pulseTime (ps.take k), on)])
        ++ [(t0 + pulseTime (ps.take k) + p.mark, 0)])
        ++ pulseEvents on (t0 + pulseTime (ps.take k) + p.mark + p.space) (ps.drop (k + 1)) := by
    conv_lhs => rw [hsplit, pulseEvents_append]
    simp [pulseEvents]
  rw [hevents, lastAt_later _ _ _ _ fun e he => hto.trans_le (pulseEvents_from _ _ _ e he), lastAt_append, lastAt_append,
    if_pos hfrom]

/-- Settles O30: within a slot the level is `CAR_ON` up to its second event and 0 from there on. -/
theorem frameEnvelope : Obligations.FrameEnvelope := by
  intro s t _ hon ht k p hp
  cases ht
  have hlevel := lastAt_pulseEvents hp s.trace s.carOn s.now
  simp only [envelopeAt, levelAt, transmitFrame_trace]
  refine ⟨fun x hfrom hto => ?_, fun x hfrom hto => ?_⟩
  · rw [hlevel x hfrom (by omega), if_neg (by omega)]
    simp [hon.ne']
  · rw [hlevel x (by omega) hto, if_pos hfrom]
    simp

end Sys2Proof.Machine
end

section
/-! PROOF. INIT, TXFRAME and SERVICE whole (O33, O40, O41, O42) and the service that meets its next TICK (O60): each is a stretch of
time after its writes. -/

namespace Sys2Proof.Machine

open Sys2Proof

/-! ### Writes before or after a stretch of time -/

section
variable {d : Nat} {s t : State} (h : Elapsed d s t)
include h

/-- Going back to WAIT forgets a wake, so it may come before the time that passes or after it (R127 (a)). -/
theorem Elapsed.toWait : Elapsed d (toWait s) (toWait t) := by
  obtain ⟨hn, hr, hf, -⟩ := h
  exact ⟨hn, hr, by rw [hf]; rfl, .inl rfl⟩

/-- Outside WAIT there is no wake to forget: the phase may be written before the time that passes or after it. -/
theorem Elapsed.setPhase (ph : Phase) (hp : s.phase ≠ .wait) : Elapsed d { s with phase := ph } { t with phase := ph } := by
  obtain ⟨hn, hr, hf, hc⟩ := h
  exact ⟨hn, hr, by rw [hf], .inl (hc.resolve_right fun hw => hp hw.1)⟩

/-- ENCODE reads nothing that passing time changes (R100). -/
theorem Elapsed.encode : Elapsed d (encodeSnapshot s) (encodeSnapshot t) := by
  obtain ⟨hn, hr, hf, hc⟩ := h
  exact ⟨hn, hr, by rw [hf]; rfl, hc⟩

end

/-- The point between two operations adds nothing to the time that passed. -/
theorem Elapsed.settle {d : Nat} {s t : State} (h : Elapsed d s t) (hs : s.Timely) : Elapsed d s (settleTick t) :=
  h.trans (settleTick_elapsed t (h.timely hs))

/-- Passing time leaves the last answer of ARM, GATE or POLL. -/
theorem Elapsed.ret_eq {d : Nat} {s t : State} (h : Elapsed d s t) : t.ret = s.ret := by
  obtain ⟨-, -, hf, -⟩ := h
  rw [hf]

/-- A timer whose next firing is still to come has fired nothing (R82). -/
theorem TimerRan.quiet {s t : State} (h : TimerRan s t) (ha : s.armed = true) (hlt : t.now < s.nextFire) :
    t.nextFire = s.nextFire ∧ t.ticks = s.ticks ∧ t.due = s.due := by
  obtain ⟨n, hticks, hnext, hdue, -, hran⟩ := h
  obtain rfl : n = 0 := by
    by_contra hn
    have hfirst := (hran ha).2 0 (Nat.pos_of_ne_zero hn)
    omega
  simp [hticks, hnext, hdue]

/-! ### INIT (spec/45_sequencer.md R125) -/

/-- INIT before ARM: the carrier configured and forced off. -/
def darkInit (s : State) : State := setLevel 0 (deriveCarrier { s with phase := .init })

theorem startUp_eq (s : State) : startUp s = finishInit (armTimer (darkInit s)) := rfl

/-- INIT up to ARM's answer, with the timer armed: the carrier configured and forced off, the first firing a period ahead. -/
def armedInit (s : State) : State :=
  { s with
    phase := .init, ret := true, carWrap := s.params.carWrap, carOn := s.params.carOn
    carLevel := 0, trace := s.trace ++ [(s.now, 0)], armed := true, nextFire := s.now + s.params.tFrame }

theorem armTimer_darkInit {s : State} (h : s.env.armOk = true) : armTimer (darkInit s) = armedInit s := armTimer_ok _ h

theorem startUp_of_armed {s : State} (h : s.env.armOk = true) : startUp s = toWait (statusPulse (armedInit s)) := by
  rw [startUp_eq, armTimer_darkInit h]
  rfl

theorem exec_init_of_wf {s : State} (h : s.params.wf = true) : exec .init s = .next (startUp s) := if_pos h

/-- Settles O33: after ARM only the feedback pulse takes time, and going to WAIT comes after it. -/
theorem initSucceeds : Obligations.InitSucceeds := by
  refine fun s hwf hok => ⟨fun hstatus => ?_, fun hnone => ?_⟩ <;> rw [exec_init_of_wf hwf, startUp_of_armed hok]
  · have htimely : (armedInit s).Timely := fun _ => ⟨tFrame_pos_of_wf hwf, Nat.le_add_right _ _⟩
    exact ⟨_, rfl, (statusPulse_elapsed (armedInit s) hstatus htimely).toWait, rfl⟩
  · rw [statusPulse_none (armedInit s) hnone]
    rfl

/-! ### TXFRAME (spec/45_sequencer.md R130) -/

theorem pulseEvents_length (on t0 : Nat) (ps : List Pulse) : (pulseEvents on t0 ps).length = 2 * ps.length := by
  induction ps generalizing t0 with
  | nil => rfl
  | cons p ps ih => simp only [pulseEvents, List.length_cons, ih]; omega

/-- Settles O42: the pulses of a list that is not empty, two events for each. -/
theorem txframeEmitsPulseList : Obligations.TxframeEmitsPulseList := by
  intro s hs hlen
  have hne : s.plist ≠ [] := List.ne_nil_of_length_pos (by omega)
  refine ⟨transmitFrame s, rfl, ?_, ?_⟩
  · rw [← hlen]
    exact transmitFrame_elapsed s hs hne
  · rw [transmitFrame_trace, List.length_append, pulseEvents_length, hlen]

/-! ### SERVICE (spec/45_sequencer.md R129) -/

/-- The snapshot a service takes: the lines at the end of its latency (R129). -/
def servedSnap (s : State) : Snapshot :=
  snapshotOf s.params.channelMap (bankRead { s with now := s.now + (drawLatency s).1 })

/-- A service up to GATE's answer, but for the latency that passes: the snapshot taken and counted, the answer in `ret`. -/
def gatedService (s : State) : State :=
  { s with
    phase := .service
    snap := servedSnap s
    idleCnt := idleCount (servedSnap s) s.idleCnt
    ret := gateTransmit s.params (servedSnap s) s.idleCnt
    env := { s.env with lats := (drawLatency s).2.env.lats } }

/-- A service up to GATE's answer, with a TICK admitted between SAMPLE and GATE (R48). -/
def serveToGate (s : State) : State := idleGate (settleTick (sampleInputs (enterService s)))

theorem serveTick_eq (s : State) : serveTick s = finishService (serveToGate s) := rfl

/-- Up to GATE's answer the latency passes after what a service writes. -/
theorem serveToGate_elapsed {s : State} (h : s.Timely) : Elapsed (drawLatency s).1 (gatedService s) (serveToGate s) :=
  serviceToGate_elapsed s h

/-- TXFRAME of the frame of the snapshot, but for the time it takes. -/
def emittedFrame (t0 : Nat) (s : State) : State :=
  { encodeSnapshot s with
    phase := .tx, slot := 26, seg := .spaceSeg, carLevel := 0
    trace := s.trace ++ pulseEvents s.carOn t0 (pulseList s.params s.snap) }

/-- After a stretch of time outside WAIT, ENCODE and TXFRAME with a TICK admitted before each (R48) are the frame and its time. -/
theorem Elapsed.emit {d : Nat} {s w : State} (h : Elapsed d s w) (hs : s.Timely) (hp : s.phase ≠ .wait) :
    Elapsed (d + pulseTime (pulseList s.params s.snap)) (emittedFrame (s.now + d) s)
      (transmitFrame (settleTick (encodeSnapshot (settleTick w)))) := by
  have he : Elapsed d (encodeSnapshot s) (settleTick (encodeSnapshot (settleTick w))) := (h.settle hs).encode.settle hs
  generalize settleTick (encodeSnapshot (settleTick w)) = y at he
  have hy : y.Timely := he.timely hs
  obtain ⟨hn, -, hf, -⟩ := id he
  have hlist : y.plist = pulseList s.params s.snap := by rw [hf]; rfl
  have hevents : s.trace ++ pulseEvents s.carOn (s.now + d) (pulseList s.params s.snap)
      = y.trace ++ pulseEvents y.carOn y.now y.plist := by
    have hnow : y.now = s.now + d := hn
    rw [hlist, hnow, hf]
    rfl
  have hlen : 26 = y.plist.length := by rw [hlist, pulseList_length]
  have htx := transmitFrame_elapsed y hy (List.ne_nil_of_length_pos (by omega))
  rw [emittedFrame, hevents, hlen, ← hlist]
  exact Elapsed.then (s := { encodeSnapshot s with phase := .tx }) (t := { y with phase := .tx }) (seg := s.seg)
    (lv := s.carLevel) (tr := s.trace) (sl := s.slot) (he.setPhase .tx hp) htx

/-- A service that transmits: the latency and the frame pass, then WAIT (R129). -/
theorem serveTick_of_transmit {s : State} (hs : s.Timely)
    (h : gateTransmit s.params (servedSnap s) s.idleCnt = true) :
    Elapsed ((drawLatency s).1 + pulseTime (pulseList s.params (servedSnap s)))
      (toWait (emittedFrame (s.now + (drawLatency s).1) (gatedService s))) (serveTick s) := by
  have hg := serveToGate_elapsed hs
  have hret : (serveToGate s).ret = true := hg.ret_eq.trans h
  rw [serveTick_eq, finishService, if_pos hret]
  exact (hg.emit hs (by simp [gatedService])).toWait

/-- A service that suppresses: the latency passes, then WAIT (R134). -/
theorem serveTick_of_suppress {s : State} (hs : s.Timely)
    (h : gateTransmit s.params (servedSnap s) s.idleCnt = false) :
    Elapsed (drawLatency s).1 (toWait (gatedService s)) (serveTick s) := by
  have hg := serveToGate_elapsed hs
  have hret : (serveToGate s).ret = false := hg.ret_eq.trans h
  rw [serveTick_eq, finishService, if_neg (by simp [hret])]
  exact hg.toWait

/-- Whatever GATE answers, a service ends in WAIT, asleep (R127 (a)). -/
theorem serveTick_ctl (s : State) : (serveTick s).ctl = .wait := by
  rw [serveTick, finishService]
  split <;> rfl

/-- GATE transmits a snapshot that is not zero, and a zero one below the threshold (R95). -/
theorem gateTransmit_eq_true {p : Params} {v : Snapshot} {cnt : Nat}
    (h : v ≠ 0 ∨ (p.idleComparePre = false ∧ cnt + 1 < p.idleThreshold) ∨ (p.idleComparePre = true ∧ cnt < p.idleThreshold)) :
    gateTransmit p v cnt = true := by
  unfold gateTransmit
  rcases h with hv | ⟨hpre, hcnt⟩ | ⟨hpre, hcnt⟩
  · rw [if_pos hv]
  · simp [hpre, hcnt]
  · simp [hpre, hcnt]

/-- GATE suppresses a zero snapshot at the threshold (R95). -/
theorem gateTransmit_eq_false {p : Params} {cnt : Nat}
    (h : (p.idleComparePre = false ∧ p.idleThreshold ≤ cnt + 1) ∨ (p.idleComparePre = true ∧ p.idleThreshold ≤ cnt)) :
    gateTransmit p 0 cnt = false := by
  unfold gateTransmit
  rcases h with ⟨hpre, hcnt⟩ | ⟨hpre, hcnt⟩ <;> simp [hpre, hcnt]

/-- Settles O40: GATE's condition is the service that transmits, and the frame lasts the active time. -/
theorem serviceTransmits : Obligations.ServiceTransmits := by
  rintro s lat v hs hbits rfl rfl hgate
  have htransmit : gateTransmit s.params (servedSnap s) s.idleCnt = true := gateTransmit_eq_true hgate
  have hcnt : idleCount (servedSnap s) s.idleCnt = if servedSnap s = 0 then s.idleCnt + 1 else 0 := ite_not _ _ _
  have he := serveTick_of_transmit hs htransmit
  rw [pulseTime_pulseList hbits, tActive_eq] at he
  simp only [gatedService, htransmit, hcnt] at he
  exact ⟨serveTick s, rfl, he, serveTick_ctl s⟩

/-- Settles O41: GATE's condition is the service that suppresses. -/
theorem serviceSuppresses : Obligations.ServiceSuppresses := by
  rintro s lat hs rfl hzero hgate
  have hsnap : servedSnap s = 0 := hzero
  have hsuppress : gateTransmit s.params 0 s.idleCnt = false := gateTransmit_eq_false hgate
  have he := serveTick_of_suppress hs (by rw [hsnap, hsuppress])
  simp only [gatedService, hsnap, hsuppress] at he
  exact ⟨serveTick s, rfl, he, serveTick_ctl s⟩

/-- A well-formed parameter set has bits of one duration (R5). -/
theorem bitsOk_of_wf {p : Params} (h : p.wf = true) : p.bitsOk = true := by
  simp only [Params.wf, Bool.and_eq_true] at h
  obtain ⟨⟨⟨-, hbits⟩, -⟩, -⟩ := h
  exact hbits

/-- Less than a period from a TICK on, the next one is still to come and nothing has fired (R172). -/
theorem Elapsed.before_next_tick {d : Nat} {s t : State} (h : Elapsed d s t) (ha : s.armed = true)
    (hnext : s.nextFire = s.now + s.params.tFrame) (hdue : s.due = false) (hd : d < s.params.tFrame) :
    t.now < t.nextFire ∧ t.nextFire = s.nextFire ∧ t.ticks = s.ticks ∧ t.due = false := by
  obtain ⟨hn, hr, -⟩ := h
  obtain ⟨qnext, qticks, qdue⟩ := hr.quiet ha (by omega)
  exact ⟨by omega, qnext, qticks, qdue.trans hdue⟩

/-- Settles O60: without overrun either kind of service lasts less than the period. -/
theorem noOverrunServiceMeetsNextTick : Obligations.NoOverrunServiceMeetsNextTick := by
  intro s t hwf ha hnext hdue ht hlatGap hlatFrame
  cases ht
  have hs : s.Timely := fun _ => ⟨tFrame_pos_of_wf hwf, by omega⟩
  cases hgate : gateTransmit s.params (servedSnap s) s.idleCnt with
  | true =>
    have he := serveTick_of_transmit hs hgate
    rw [pulseTime_pulseList (bitsOk_of_wf hwf)] at he
    have hlat := hlatGap (he.ret_eq.trans hgate)
    have hframe : s.params.tFrame = s.params.tActive + s.params.tGap := rfl
    have hshort : (drawLatency s).1 + s.params.tActive < s.params.tFrame := by omega
    exact he.before_next_tick ha hnext hdue hshort
  | false =>
    have he := serveTick_of_suppress hs hgate
    exact he.before_next_tick ha hnext hdue (hlatFrame (he.ret_eq.trans hgate))

end Sys2Proof.Machine
end

section
/-! PROOF. What the step of a running block does at each control position (O44). -/

namespace Sys2Proof.Machine

open Sys2Proof

/-! ### What the operations leave to the step -/

/-- The latency drawn does not depend on what POLL writes. -/
theorem drawLatency_polled (s : State) (b : Bool) :
    drawLatency { s with due := false, ret := b } = ((drawLatency s).1, { (drawLatency s).2 with due := false, ret := b }) := by
  unfold drawLatency
  split <;> simp_all

/-- STATUS leaves the timer on time. -/
theorem statusPulse_timely {s : State} (h : s.Timely) : (statusPulse s).Timely :=
  (statusPulse_ran s h).timely h (by rw [statusPulse_frame]) (statusPulse_params s)

/-- WAIT leaves the timer on time. -/
theorem sleepUntilWoken_timely {s : State} (h : s.Timely) : (sleepUntilWoken s).Timely := by
  refine (sleepUntilWoken_ran s).timely h ?_ (sleepUntilWoken_params s)
  rcases sleepUntilWoken_cases s with ⟨x, -, -, e⟩ | ⟨-, -, e⟩ | ⟨-, -, e⟩ <;> rw [e, drawWake_frame]

/-- A SPACE leaves the timer on time. -/
theorem spaceFor_timely (d : Nat) {s : State} (h : s.Timely) : (spaceFor d s).Timely :=
  (spaceFor_elapsed d s h).timely h

/-- After POLL found `DUE = 1` the latency passes in SERVICE (R129). -/
theorem enterService_polled {s : State} (h : s.Timely) :
    Elapsed (drawLatency s).1
      { s with due := false, ret := true, phase := .service, ctl := .sample
               env := { s.env with lats := (drawLatency s).2.env.lats } }
      { enterService { s with due := false, ret := true } with ctl := .sample } := by
  have he := (enterService_elapsed { s with due := false, ret := true } h).setCtl .sample
  rwa [drawLatency_polled] at he

/-! ### The order at the point between two operations (R144) -/

/-- Where a TICK is due at the point between two operations, a scripted draw says whether it fires there. -/
theorem settleTick_scripted {s : State} {b : Bool} {rest : List Bool} (h : tickEnabled s = true) (ho : s.env.orders = b :: rest) :
    (settleTick s).env.orders = rest ∧ (settleTick s).ticks = if b then s.ticks ++ [s.now] else s.ticks := by
  have hdraw : drawOrder s = (b, { s with env := { s.env with orders := rest } }) := by simp [drawOrder, ho]
  cases b <;> simp [settleTick, h, hdraw]

/-- The step after SAMPLE, GATE or ENCODE ends at the point between two operations, with the timer and the draws untouched. -/
theorem step_settles {s : State} (h : Running s) (hc : s.ctl = .sample ∨ s.ctl = .gate ∨ s.ctl = .encode) :
    ∃ x, step s = .next (settleTick x) ∧ tickEnabled x = tickEnabled s ∧ x.env = s.env ∧ x.ticks = s.ticks ∧ x.now = s.now := by
  rcases hc with hc | hc | hc
  · exact ⟨_, step_at_sample h hc, rfl, rfl, rfl, rfl⟩
  · cases hr : (idleGate s).ret with
    | true => exact ⟨_, (step_at_gate h hc).trans (congrArg _ (afterOp_gate_of_transmit hr)), rfl, rfl, rfl, rfl⟩
    | false => exact ⟨_, (step_at_gate h hc).trans (congrArg _ (afterOp_gate_of_suppress hr)), rfl, rfl, rfl, rfl⟩
  · exact ⟨_, step_at_encode h hc, rfl, rfl, rfl, rfl⟩

/-- The step at the SPACE of a slot: on to the next slot, or back to WAIT after the last (R130). -/
theorem step_at_space_cases {s : State} (h : Running s) (hs : s.Timely) (hc : s.ctl = .space) {p : Pulse}
    (hp : s.plist[s.slot]? = some p) :
    ∃ u, step s = .next u
      ∧ (s.slot + 1 < s.plist.length → u = { spaceFor p.space s with slot := s.slot + 1, ctl := .mark })
      ∧ (s.slot + 1 = s.plist.length →
          Elapsed 0 { spaceFor p.space s with slot := s.slot + 1, phase := .wait, ctl := .wait } u) := by
  have hstep := step_at_space h hc hp
  refine ⟨_, hstep, fun hlt => ?_, fun hlast => ?_⟩
  · rw [afterOp_space_of_lt (by simpa using hlt), nextSlot, spaceFor_slot]
  · rw [afterOp_space_of_not_lt (by simp [hlast]), nextSlot, spaceFor_slot]
    exact settleTick_elapsed (toWait { spaceFor p.space s with slot := s.slot + 1 }) (spaceFor_timely p.space hs)

/-- Settles O44, position by position: the step there is the operation and `afterOp`. -/
theorem stepRunsNextOperation : Obligations.StepRunsNextOperation := by
  intro s h hs
  refine ⟨?boot, ?initLevel, ?initArm, ?initStatus, ?wait, ?pollDue, ?pollNothing, ?sample, ?gate, ?encode, ?mark, ?space,
    ?order⟩
  case boot => exact fun hc hw => ⟨_, exec_carcfg_of_wf (s := { s with phase := .init }) hw, step_at_boot h hc hw⟩
  case initLevel => exact fun hc => ⟨_, rfl, step_at_initLevel h hc⟩
  case initArm =>
    refine fun hc => ⟨armTimer s, rfl, fun hr => ?_, fun hr => ?_⟩ <;> rw [step_at_initArm h hc]
    · rw [afterOp_arm_of_armed hr]
    · rw [afterOp_arm_of_failed hr]
      rfl
  case initStatus =>
    exact fun hc => ⟨_, _, rfl, step_at_initStatus h hc,
      settleTick_elapsed (toWait (statusPulse s)) (statusPulse_timely hs)⟩
  case wait => exact fun hc => ⟨_, _, rfl, step_at_wait h hc, settleTick_elapsed _ (sleepUntilWoken_timely hs)⟩
  case pollDue =>
    exact fun hc hd => ⟨_, _, exec_poll_of_due hd, step_at_poll_of_due h hc hd, enterService_polled hs⟩
  case pollNothing =>
    exact fun hc hd => ⟨_, _, exec_poll_of_not_due hd, step_at_poll_of_not_due h hc hd, settleTick_elapsed _ hs⟩
  case sample => exact fun hc => ⟨_, _, rfl, step_at_sample h hc, settleTick_elapsed _ hs⟩
  case gate =>
    refine fun hc => ⟨idleGate s, _, rfl, step_at_gate h hc, fun hr => ?_, fun hr => ?_⟩
    · rw [afterOp_gate_of_transmit hr]
      exact settleTick_elapsed { idleGate s with ctl := .encode } hs
    · rw [afterOp_gate_of_suppress hr]
      exact settleTick_elapsed (toWait (idleGate s)) hs
  case encode => exact fun hc => ⟨_, _, rfl, step_at_encode h hc, settleTick_elapsed _ hs⟩
  case mark => exact fun hc p hp => ⟨_, rfl, step_at_mark h hc hp⟩
  case space =>
    intro hc p hp
    obtain ⟨u, hstep, hnext, hlast⟩ := step_at_space_cases h hs hc hp
    exact ⟨_, u, rfl, hstep, hnext, hlast⟩
  case order =>
    intro b rest hc ha hnow ho
    obtain ⟨x, hstep, hen, henv, hticks, hxnow⟩ := step_settles h hc
    have hdue : tickEnabled x = true := hen.trans ((tickEnabled_iff s).mpr ⟨ha, hnow⟩)
    have hx := settleTick_scripted hdue (henv ▸ ho)
    rw [hticks, hxnow] at hx
    exact ⟨_, hstep, hx⟩

end Sys2Proof.Machine
end

section
/-! PROOF. The machine's steps add up to INIT, SERVICE and TXFRAME (O54, O55, O56). Run whole, these keep the control position they
began at; the steps move it on. Outside WAIT nothing that takes time reads it, so the two runs differ in it alone, and the
return to WAIT writes it in both. -/

namespace Sys2Proof.Machine

open Sys2Proof

/-! ### Outside WAIT nothing that takes time reads the control position -/

/-- The same state at another control position. -/
def State.withCtl (c : Ctl) (s : State) : State := { s with ctl := c }

theorem withCtl_self {c : Ctl} {s : State} (h : s.ctl = c) : s.withCtl c = s := by
  subst h
  rfl

/-- A write commutes with the point between two operations if the timer, its draw and its TICK do not see it. -/
theorem settleTick_commutes {f : State → State} {s : State} (hen : tickEnabled (f s) = tickEnabled s)
    (hdraw : drawOrder (f s) = ((drawOrder s).1, f (drawOrder s).2))
    (htick : tickFire (f (drawOrder s).2) = f (tickFire (drawOrder s).2)) : settleTick (f s) = f (settleTick s) := by
  rw [settleTick, settleTick, hen, hdraw]
  split
  · split
    · exact htick
    · rfl
  · rfl

/-- TXFRAME's first lines may come before a TICK or after it (R48). -/
theorem settleTick_startFrame {s : State} (h : s.phase ≠ .wait) : settleTick (startFrame s) = startFrame (settleTick s) := by
  refine settleTick_commutes rfl ?_ ?_
  · unfold drawOrder
    split <;> simp_all [startFrame]
  · simp [tickFire, startFrame, h]

section
variable {s : State} (h : s.phase ≠ .wait) (c : Ctl)
include h

theorem tickFire_withCtl : tickFire (s.withCtl c) = (tickFire s).withCtl c := by
  simp [tickFire, State.withCtl, h]

theorem settleTick_withCtl : settleTick (s.withCtl c) = (settleTick s).withCtl c := by
  refine settleTick_commutes (f := State.withCtl c) rfl ?_ (tickFire_withCtl (by rwa [drawOrder_phase]) c)
  unfold drawOrder
  split <;> simp_all [State.withCtl]

theorem fireTicks_withCtl (fuel limit : Nat) : fireTicks fuel limit (s.withCtl c) = (fireTicks fuel limit s).withCtl c := by
  induction fuel generalizing s with
  | zero => rfl
  | succ n ih =>
    have hdue : ((s.withCtl c).armed && decide ((s.withCtl c).nextFire < limit)) = (s.armed && decide (s.nextFire < limit)) := rfl
    have htick : tickFire { s.withCtl c with now := (s.withCtl c).nextFire } = (tickFire { s with now := s.nextFire }).withCtl c :=
      tickFire_withCtl (s := { s with now := s.nextFire }) h c
    rw [fireTicks, fireTicks, hdue, htick]
    split
    · exact ih (s := tickFire { s with now := s.nextFire }) h
    · rfl

theorem waitFor_withCtl (d : Nat) : waitFor d (s.withCtl c) = (waitFor d s).withCtl c := by
  have hnow : (s.withCtl c).now = s.now := rfl
  rw [waitFor, fireTicks_withCtl h, hnow]
  exact settleTick_withCtl (s := { fireTicks d (s.now + d) s with now := s.now + d }) (by simpa using h) c

theorem markFor_withCtl (d : Nat) : markFor d (s.withCtl c) = (markFor d s).withCtl c :=
  waitFor_withCtl (s := setLevel s.carOn { s with seg := .markSeg }) h c d

theorem spaceFor_withCtl (d : Nat) : spaceFor d (s.withCtl c) = (spaceFor d s).withCtl c :=
  waitFor_withCtl (s := setLevel 0 { s with seg := .spaceSeg }) h c d

theorem emitSlot_withCtl (p : Pulse) : emitSlot p (s.withCtl c) = (emitSlot p s).withCtl c := by
  rw [emitSlot, pulseFor, markFor_withCtl h, spaceFor_withCtl (by rwa [markFor_phase])]
  rfl

theorem emitSlots_withCtl (ps : List Pulse) :
    ps.foldl (fun t p => emitSlot p t) (s.withCtl c) = (ps.foldl (fun t p => emitSlot p t) s).withCtl c := by
  induction ps generalizing s with
  | nil => rfl
  | cons p ps ih =>
    rw [List.foldl_cons, emitSlot_withCtl h]
    exact ih (by simpa [emitSlot] using h)

theorem statusPulse_withCtl : statusPulse (s.withCtl c) = (statusPulse s).withCtl c := by
  cases hs : s.params.hasStatus with
  | false => rw [statusPulse_none s hs, statusPulse_none (s.withCtl c) hs]
  | true =>
    have hwait := waitFor_withCtl (s := { s with statusOut := true, statusLog := s.statusLog ++ [(s.now, true)] }) h c
      s.params.tStatusPulse
    rw [statusPulse_some s hs, statusPulse_some (s.withCtl c) hs]
    refine (congrArg (statusWrite false) hwait).trans ?_
    unfold statusWrite
    split <;> simp_all [State.withCtl]

/-- A slot of TXFRAME leaves the control position alone. -/
theorem emitSlot_ctl (p : Pulse) : (emitSlot p s).ctl = s.ctl := by
  have hmark : (markFor p.mark s).ctl = s.ctl := waitFor_ctl_of_ne _ _ h
  exact (waitFor_ctl_of_ne _ _ (by simpa using h)).trans hmark

end

/-! ### A running block keeps running while time passes -/

theorem Running.waitFor {s : State} (h : Running s) (d : Nat) : Running (waitFor d s) :=
  h.congr (by rw [waitFor_env]) (waitFor_halted d s) (waitFor_port d s)

theorem Running.settleTick {s : State} (h : Running s) : Running (settleTick s) := h.waitFor 0

theorem Running.markFor {s : State} (h : Running s) (d : Nat) : Running (markFor d s) :=
  Running.waitFor (s := setLevel s.carOn { s with seg := .markSeg }) h d

theorem Running.spaceFor {s : State} (h : Running s) (d : Nat) : Running (spaceFor d s) :=
  Running.waitFor (s := setLevel 0 { s with seg := .spaceSeg }) h d

theorem Running.emitSlot {s : State} (h : Running s) (p : Pulse) : Running (emitSlot p s) :=
  (h.markFor p.mark).spaceFor p.space

theorem Running.enterService {s : State} (h : Running s) : Running (enterService s) := by
  refine Running.waitFor ?_ _
  rw [drawLatency_frame]
  exact h

/-! ### TXFRAME (R130) -/

/-- The two steps of a slot: its MARK and its SPACE, which is the slot's round of TXFRAME's loop. -/
theorem run_slot {s : State} {p : Pulse} (h : Running s) (hc : s.ctl = .mark) (hph : s.phase = .tx)
    (hp : s.plist[s.slot]? = some p) (k : Nat) :
    Host.Core.run core (k + 2) s = Host.Core.run core k (afterOp .space ((pulseFor p s).withCtl .space)) := by
  have hmark : step s = .next ((markFor p.mark s).withCtl .space) := step_at_mark h hc hp
  have hrun : Running ((markFor p.mark s).withCtl .space) := h.markFor p.mark
  have hpair : ((markFor p.mark s).withCtl .space).plist[((markFor p.mark s).withCtl .space).slot]? = some p := by
    simpa [State.withCtl] using hp
  have hspace := step_at_space hrun rfl hpair
  rw [spaceFor_withCtl (by simp [hph])] at hspace
  rw [run_succ hmark, run_succ hspace, pulseFor]

/-- The steps of TXFRAME's loop from any slot on: its rounds, then WAIT and the point between two operations. -/
theorem run_slots {s : State} {p : Pulse} {ps : List Pulse} (h : Running s) (hc : s.ctl = .mark) (hph : s.phase = .tx)
    (hps : s.plist.drop s.slot = p :: ps) :
    Host.Core.run core (2 * ps.length + 2) s = .next (settleTick (toWait ((p :: ps).foldl (fun t p => emitSlot p t) s))) := by
  induction ps generalizing p s with
  | nil =>
    have hp : s.plist[s.slot]? = some p := by rw [← List.head?_drop, hps]; rfl
    have hlen : s.plist.length - s.slot = 1 := by rw [← List.length_drop, hps]; rfl
    have hlast : afterOp .space ((pulseFor p s).withCtl .space) = settleTick (toWait (emitSlot p s)) :=
      afterOp_space_of_not_lt (by simp [State.withCtl]; omega)
    rw [run_slot h hc hph hp, hlast]
    rfl
  | cons q qs ih =>
    have hp : s.plist[s.slot]? = some p := by rw [← List.head?_drop, hps]; rfl
    have hlen : s.plist.length - s.slot = qs.length + 2 := by rw [← List.length_drop, hps]; rfl
    have hround : afterOp .space ((pulseFor p s).withCtl .space) = (emitSlot p s).withCtl .mark :=
      afterOp_space_of_lt (by simp [State.withCtl]; omega)
    have hmark : (emitSlot p s).ctl = .mark := (emitSlot_ctl (by simp [hph]) p).trans hc
    rw [List.length_cons, Nat.mul_succ, run_slot h hc hph hp, hround, withCtl_self hmark]
    refine ih (h.emitSlot p) hmark (by simpa [emitSlot] using hph) ?_
    have hslot : (emitSlot p s).slot = s.slot + 1 := by simp [emitSlot]
    have hplist : (emitSlot p s).plist = s.plist := by simp [emitSlot]
    rw [hslot, hplist, ← List.drop_drop, hps]
    rfl

/-- The 52 steps of a frame of 26 pairs (R130, R133). -/
theorem run_frame {s : State} (h : Running s) (hc : s.ctl = .mark) (hph : s.phase = .tx) (hslot : s.slot = 0)
    (hlen : s.plist.length = 26) :
    Host.Core.run core 52 s = .next (settleTick (toWait (s.plist.foldl (fun t p => emitSlot p t) s))) := by
  obtain ⟨p, ps, hps⟩ := List.exists_cons_of_length_pos (by omega : 0 < s.plist.length)
  have hrest : ps.length = 25 := by simpa [hps] using hlen
  have hrun := run_slots h hc hph (by rw [hslot, hps]; rfl)
  rwa [hrest, ← hps] at hrun

/-- Settles O54: TXFRAME's first lines have been run already, its loop is the 52 steps. -/
theorem txframeRunsAsMarkSpaceSteps : Obligations.TxframeRunsAsMarkSpaceSteps := by
  intro s h hc hph hslot hlen
  have hstart : startFrame s = s := by ext1 <;> simp [hph, hslot]
  refine ⟨transmitFrame s, rfl, ?_⟩
  rw [run_frame h hc hph hslot hlen, transmitFrame, hstart]
  rfl

/-! ### SERVICE (R129) -/

/-- The return to WAIT forgets the control position TXFRAME's loop ran at. -/
theorem toWait_transmitFrame (c : Ctl) (s : State) :
    toWait (s.plist.foldl (fun t p => emitSlot p t) ((startFrame s).withCtl c)) = toWait (transmitFrame s) := by
  rw [emitSlots_withCtl (by simp)]
  rfl

/-- ENCODE's step and the 52 of the frame: what SERVICE does after GATE said transmit, then WAIT (R129, R130). -/
theorem run_encode {s : State} (h : Running s) (hph : s.phase = .service) :
    Host.Core.run core 53 (s.withCtl .encode) = .next (settleTick (toWait (transmitFrame (settleTick (encodeSnapshot s))))) := by
  have hstep : step (s.withCtl .encode) = .next ((startFrame (settleTick (encodeSnapshot s))).withCtl .mark) := by
    have hwait : (encodeSnapshot s).phase ≠ .wait := by simp [hph]
    rw [← settleTick_startFrame hwait, ← settleTick_withCtl (by simp)]
    exact step_at_encode h rfl
  have hlen : (startFrame (settleTick (encodeSnapshot s))).plist.length = 26 := by simp [pulseList_length]
  have hrun : Running ((startFrame (settleTick (encodeSnapshot s))).withCtl .mark) :=
    Running.settleTick (s := encodeSnapshot s) h
  rw [run_succ hstep, ← toWait_transmitFrame .mark]
  exact run_frame hrun rfl rfl rfl hlen

/-- The three steps from a POLL that finds `DUE = 1` up to GATE's answer: the latency, SAMPLE, GATE (R129). -/
theorem run_toGate {s : State} (h : Running s) (hc : s.ctl = .poll) (hd : s.due = true) (k : Nat) :
    Host.Core.run core (k + 3) s
      = Host.Core.run core k (afterOp .gate ((serveToGate { s with due := false, ret := true }).withCtl .gate)) := by
  have hserve := step_at_poll_of_due h hc hd
  have hrun : Running (enterService { s with due := false, ret := true }) :=
    Running.enterService (s := { s with due := false, ret := true }) h
  have hph : (enterService { s with due := false, ret := true }).phase = .service := enterService_phase _
  rw [serveToGate]
  generalize enterService { s with due := false, ret := true } = u at hserve hrun hph
  have hsample : step (u.withCtl .sample) = .next ((settleTick (sampleInputs u)).withCtl .gate) := by
    rw [← settleTick_withCtl (by simp [hph])]
    exact step_at_sample hrun rfl
  have hgate := step_at_gate (s := (settleTick (sampleInputs u)).withCtl .gate)
    (Running.settleTick (s := sampleInputs u) hrun) rfl
  exact (run_succ hserve _).trans ((run_succ hsample _).trans (run_succ hgate _))

/-- From GATE's answer on the steps are the frame's 53, or none (R129, R134). -/
theorem run_finishService {w : State} (h : Running w) (hph : w.phase = .service) :
    Host.Core.run core (if w.ret then 53 else 0) (afterOp .gate (w.withCtl .gate)) = .next (settleTick (finishService w)) := by
  cases hret : w.ret with
  | true =>
    have hpass : afterOp .gate (w.withCtl .gate) = (settleTick w).withCtl .encode :=
      (afterOp_gate_of_transmit hret).trans (settleTick_withCtl (by simp [hph]) .encode)
    rw [if_pos rfl, hpass, finishService, if_pos hret]
    exact run_encode h.settleTick (by simpa using hph)
  | false =>
    have hback : finishService w = toWait w := if_neg (by simp [hret])
    rw [if_neg (by decide), hback]
    exact congrArg Host.Outcome.next (afterOp_gate_of_suppress (t := w.withCtl .gate) hret)

/-- Neither ENCODE nor TXFRAME changes GATE's answer. -/
theorem finishService_ret (s : State) : (finishService s).ret = s.ret := by
  have hframe : ∀ u, (transmitFrame u).ret = u.ret := fun u => by rw [transmitFrame_lineFrame u]
  unfold finishService
  split
  · simp [hframe]
  · rfl

theorem serveToGate_phase (s : State) : (serveToGate s).phase = .service := by simp [serveToGate]

theorem Running.serveToGate {s : State} (h : Running s) : Running (serveToGate s) :=
  Running.settleTick (s := sampleInputs (Machine.enterService s)) h.enterService

/-- Settles O55: up to GATE's answer three steps, then the frame's 53 or none. -/
theorem serviceRunsAsItsSteps : Obligations.ServiceRunsAsItsSteps := by
  intro s h hc hd
  have hpolled : Running { s with due := false, ret := true } := h
  refine ⟨_, rfl, ?_⟩
  rw [serveTick_eq, finishService_ret, ← run_finishService hpolled.serveToGate (serveToGate_phase _),
    ← run_toGate h hc hd]
  split <;> rfl

/-! ### INIT (R125) -/

/-- ARM's answer does not depend on the control position (R80). -/
theorem armTimer_withCtl (c : Ctl) (s : State) : armTimer (s.withCtl c) = (armTimer s).withCtl c := by
  rcases armTimer_cases s with ⟨hok, e⟩ | ⟨hfail, e⟩
  · rw [e]; exact armTimer_ok (s.withCtl c) hok
  · rw [e]; exact armTimer_fail (s.withCtl c) hfail

/-- INIT's steps up to ARM's answer: CARCFG, SETLVL 0 and ARM (R125). -/
theorem run_toArm {s : State} (h : Running s) (hc : s.ctl = .boot) (hw : s.params.wf = true) (k : Nat) :
    Host.Core.run core (k + 3) s
      = Host.Core.run core k (afterOp .initArm ((armTimer (darkInit s)).withCtl .initArm)) := by
  have hlevel : step ((deriveCarrier { s with phase := .init }).withCtl .initLevel) = .next ((darkInit s).withCtl .initArm) :=
    step_at_initLevel h rfl
  have harm := step_at_initArm (s := (darkInit s).withCtl .initArm) h rfl
  rw [armTimer_withCtl] at harm
  exact (run_succ (step_at_boot h hc hw) _).trans ((run_succ hlevel _).trans (run_succ harm _))

/-- Settles O56: three steps up to ARM's answer, then STATUS's or none. -/
theorem initRunsAsItsSteps : Obligations.InitRunsAsItsSteps := by
  intro s h hc hw
  refine ⟨startUp s, exec_init_of_wf hw, fun hok => ?_, fun hfail => ?_⟩
  · have hstatus := step_at_initStatus (s := (armedInit s).withCtl .initStatus) h rfl
    rw [statusPulse_withCtl (by simp [armedInit])] at hstatus
    rw [run_toArm h hc hw 1, armTimer_darkInit hok, startUp_of_armed hok]
    exact run_succ hstatus 0
  · have harm : armTimer (darkInit s) = { darkInit s with ret := false } := armTimer_fail _ hfail
    rw [run_toArm h hc hw 0, startUp_eq, harm]
    rfl

end Sys2Proof.Machine
end

section
/-! PROOF. The one fault: no operation raises it, INIT's failing path ends in HALT, a running block always has a next state and only a
halted one answers the fault (O34, O52). -/

namespace Sys2Proof.Machine

open Sys2Proof

/-! ### INIT_FAIL (spec/60_exceptions.md R140, spec/45_sequencer.md R125, R131) -/

/-- INIT with the timer refused: the carrier is configured and forced off, then HALT is entered. -/
theorem startUp_of_unarmed {s : State} (h : s.env.armOk = false) : startUp s = enterHalt { darkInit s with ret := false } := by
  have harm : armTimer (darkInit s) = { darkInit s with ret := false } := armTimer_fail _ h
  rw [startUp_eq, harm]
  exact if_neg Bool.false_ne_true

/-- Settles O34: the failing path is CARCFG, SETLVL 0, ARM's refusal and HALT, and each writes just what is stated. -/
theorem initFailureHalts : Obligations.InitFailureHalts := by
  intro s hwf hfail
  rw [exec_init_of_wf hwf, startUp_of_unarmed hfail]
  rfl

/-! ### Only a halted block answers a fault (R141) -/

/-- An operation is refused or has a next state. -/
theorem exec_ne_fault (i : Instr) (s : State) (r : Fault) : exec i s ≠ .fault r := by
  intro h
  cases i with
  | carcfg =>
    rw [exec, execCarcfg] at h
    split at h <;> cases h
  | init =>
    rw [exec, execInit] at h
    split at h <;> cases h
  | _ => cases h

theorem mainStep_ne_fault (s : State) (r : Fault) : mainStep s ≠ .fault r := by
  intro h
  unfold mainStep at h
  split at h
  · cases h
  next i _ =>
    split at h
    · cases h
    next hf => exact exec_ne_fault i _ _ hf
    · cases h

theorem runWord_ne_fault (nbits w : Nat) (s : State) (r : Fault) : runWord nbits w s ≠ .fault r := by
  intro h
  unfold runWord at h
  split at h
  next i _ => exact exec_ne_fault i s r h
  · cases h

/-- Neither reset, nor a presented word, nor the main context answers a fault: HALT does (log 13). -/
theorem halted_of_step_fault {s : State} {r : Fault} (h : step s = .fault r) : s.halted = true := by
  unfold step at h
  split at h
  · cases h
  · unfold runStep at h
    split at h
    · assumption
    · split at h
      · exact absurd h (runWord_ne_fault _ _ _ r)
      · exact absurd h (mainStep_ne_fault s r)

/-! ### A running block has a next state (R141) -/

/-- At every control position the operation is carried out: CARCFG's parameter set is not refused, and TXFRAME's loop has a pair
left. -/
theorem BlockInv.exists_step {s : State} (h : BlockInv s) (hr : Running s) (hw : s.params.wf = true) :
    ∃ t, Machine.step s = .next t := by
  cases hc : s.ctl with
  | boot => exact ⟨_, step_at_boot hr hc hw⟩
  | initLevel => exact ⟨_, step_at_initLevel hr hc⟩
  | initArm => exact ⟨_, step_at_initArm hr hc⟩
  | initStatus => exact ⟨_, step_at_initStatus hr hc⟩
  | wait => exact ⟨_, step_at_wait hr hc⟩
  | poll =>
    cases hd : s.due with
    | true => exact ⟨_, step_at_poll_of_due hr hc hd⟩
    | false => exact ⟨_, step_at_poll_of_not_due hr hc hd⟩
  | sample => exact ⟨_, step_at_sample hr hc⟩
  | gate => exact ⟨_, step_at_gate hr hc⟩
  | encode => exact ⟨_, step_at_encode hr hc⟩
  | mark =>
    obtain ⟨p, hp⟩ := Option.ne_none_iff_exists'.mp (h.pair_left (.inl hc))
    exact ⟨_, step_at_mark hr hc hp⟩
  | space =>
    obtain ⟨p, hp⟩ := Option.ne_none_iff_exists'.mp (h.pair_left (.inr hc))
    exact ⟨_, step_at_space hr hc hp⟩

/-- Settles O52: a running block's next state by control position; the fault is HALT's alone. -/
theorem runningBlockNeverStuck : Obligations.RunningBlockNeverStuck :=
  ⟨fun _ h hr hw => h.exists_step hr hw, fun _ _ h => halted_of_step_fault h⟩

end Sys2Proof.Machine
end

section
/-! PROOF. Asserted reset (O47): it comes before HALT, a presented word and the main context, and what it leaves is `State.afterReset`
whatever the state was. -/

namespace Sys2Proof.Machine

/-- While reset is asserted the step is the reset, in any phase, halted or with a word presented (R165). -/
theorem step_of_resetIn {s : State} (h : s.env.resetIn = true) : step s = .next (assertReset s) := if_pos h

/-- The parameters are not state: a reset keeps them (R14, R165). -/
@[simp] theorem assertReset_params (s : State) : (assertReset s).params = s.params := rfl

/-- Settles O47: the step is the reset, and R29's values are those `State.afterReset` is made of. -/
theorem assertedResetGivesResetValues : Obligations.AssertedResetGivesResetValues := by
  intro s hreset
  refine ⟨assertReset s, step_of_resetIn hreset, ?_⟩
  exact ⟨rfl, rfl, rfl, rfl, rfl, rfl, rfl, rfl, rfl, rfl, rfl, rfl, assertReset_params s⟩

end Sys2Proof.Machine
end
